-- ==== Sys2Proof/Word.lean ====
section
/-! DEFINITION. The words of Trace CORE (`10_state.md` R20, `30_encoding.md` R71, R78, R80): names for the
bit-vector widths the spec gives. Nothing here computes; every operation on words is in Machine/Ops.lean. -/

namespace Sys2Proof

/-- A phase: an unsigned 32-bit fraction of a cycle (R21). -/
abbrev Phase := BitVec 32

/-- A signed 32-bit register: `FX`, `FY`, `MOD1`, `MOD2` (R20). -/
abbrev Word32 := BitVec 32

/-- A signed 16-bit tick-word field, table sample or coordinate (R63, R71, R72). -/
abbrev Half := BitVec 16

/-- The 128-bit tick word `TICKW` (R71). -/
abbrev TickBits := BitVec 128

/-- The 96-bit output word `OUTW` (R78). -/
abbrev OutBits := BitVec 96

/-- The 8-bit generator descriptor word `GDESC[b][s]` (R80). -/
abbrev DescBits := BitVec 8

end Sys2Proof
end

