-- ==== Sys2Proof/Config.lean ====
section
/-! DEFINITION. The configuration record `Cfg` (`00_scope.md` R8) with the whole table ROM (`20_memory.md` R51, R63).
Lengths and entry ranges that R63 and R8 fix are in the types; the constraints that relate fields are the check
`Cfg.wellFormed` of Machine/Validity.lean (`48_tick.md` R195). The record is constant for a run (R66). -/

namespace Sys2Proof

/-- One record of the arc table `FN_ARC` (R8, R124): phase multiple, offset, radius, centre. -/
structure Arc where
  mul : BitVec 8
  off : Phase
  rad : Half
  cx : Half
  cy : Half
deriving DecidableEq, Repr

/-- One point of a path table: three signed 16-bit words in the order x, y, z (R63). -/
structure PathPoint where
  x : Half
  y : Half
  z : Half
deriving DecidableEq, Repr

/-- The four channel tables of one wavetable generator: tables A and B, horizontal and vertical (R51, R151). -/
structure WtTables where
  aH : Vector Half 1024
  aV : Vector Half 1024
  bH : Vector Half 1024
  bV : Vector Half 1024
deriving DecidableEq, Repr

/-- The configuration record of R8. `PATH_LEN[j]` is the length of `path[j]`; `BANK_COUNT` and `SLOTS[b]` are the
lengths of `gdesc` and of its rows, so that no two fields can disagree (DESIGN CHOICE, log entry 15). -/
structure Cfg where
  /-- `INC[0..4095]`, the exponential increment table (R103). -/
  inc : Vector (BitVec 32) 4096
  /-- `SIN[0..511]` (R113). -/
  sin : Vector Half 512
  /-- `SIN_SHIFT`, 0..31. -/
  sinShift : Fin 32
  /-- `GROW_MIN`, 0..4096 (R122). -/
  growMin : Fin 4097
  /-- `ROT_GAIN` (R104). -/
  rotGain : BitVec 32
  /-- `FN_ARC[0..3]` (R124). -/
  fnArc : Vector Arc 4
  /-- `FN_FLIP_X` (R125). -/
  fnFlipX : Bool
  /-- `FN_FLIP_Y` (R125). -/
  fnFlipY : Bool
  /-- `PATH[0..2]`, each an ordered closed loop of points (R140, R141). -/
  path : Vector (List PathPoint) 3
  /-- `ISO_K` (R144). -/
  isoK : Half
  /-- `ISO_SHIFT`, 0..31. -/
  isoShift : Fin 32
  /-- `MESH_GAIN` (R145). -/
  meshGain : Half
  /-- `MESH_SHIFT`, 0..31. -/
  meshShift : Fin 32
  /-- `WT[0..2]` (R151). -/
  wt : Vector WtTables 3
  /-- `WT_GAIN_X` (R153). -/
  wtGainX : Half
  /-- `WT_GAIN_Y` (R153). -/
  wtGainY : Half
  /-- `WT_SHIFT`, 0..31. -/
  wtShift : Fin 32
  /-- `ATT_SHIFT`, 0..31 (R163). -/
  attShift : Fin 32
  /-- `DEADBAND` (R166). -/
  deadband : Nat
  /-- `LPF_COEF` (R181). -/
  lpfCoef : Nat
  /-- `LPF_SHIFT`, 0..31. -/
  lpfShift : Fin 32
  /-- `GDESC[b][s]` as stored, reserved encodings included (R80, R82). -/
  gdesc : List (List DescBits)
  /-- `FS`, the sample rate in Hz where it is set: informational, no rule reads it (R8, R234). -/
  fs : Option Nat
deriving DecidableEq, Repr

end Sys2Proof
end

