-- ==== Sys2Proof/Machine/Arith.lean ====
section
/-! DEFINITION. The arithmetic primitives of `00_scope.md` R11 that the rules' pseudocode uses, the one linear
interpolation of R111, R141 and R152, and the builder of a table from a formula. -/

namespace Sys2Proof.Machine

/-- `asr(v, n) = floor(v / 2^n)` for `v` of either sign (R11, decision D4). -/
def asr (v : Int) (n : Nat) : Int :=
  v / ((2 ^ n : Nat) : Int)

/-- `clamp(v, lo, hi)` (R11). -/
def clamp (v lo hi : Int) : Int :=
  if v < lo then lo else if hi < v then hi else v

/-- The low 32 bits of an integer: the cut of a write to a 32-bit register, `mod 2^32` of an unsigned one and
`wrap32s` of a signed one (R11, R39). -/
def cut32 (v : Int) : BitVec 32 :=
  BitVec.ofInt 32 v

/-- `a + asr((b - a) * w, f)`: exact product, one floor (R111, R141, R152). -/
def interpolate (a b w : Int) (f : Nat) : Int :=
  a + asr ((b - a) * w) f

/-- The `n` values `f i`, `f (i + 1)`, … -/
def tabulateFrom {α : Type} (f : Nat → α) : Nat → Nat → List α
  | 0, _ => []
  | n + 1, i => f i :: tabulateFrom f n (i + 1)

theorem tabulateFrom_length {α : Type} (f : Nat → α) (n i : Nat) : (tabulateFrom f n i).length = n := by
  induction n generalizing i with
  | zero => rfl
  | succ n ih => simp [tabulateFrom, ih]

/-- The table of `n` entries whose entry `i` is `f i`. -/
def tabulate {α : Type} (n : Nat) (f : Nat → α) : Vector α n :=
  ⟨⟨tabulateFrom f n 0⟩, by simp [tabulateFrom_length]⟩

end Sys2Proof.Machine
end

