-- ==== Sys2Proof/Machine/TestConfig.lean ====
section
/-! DEFINITION. CFG_T, the spec's own test configuration (`00_scope.md` R8, R9; `95_test_vectors.md` section 2). It is
the spec's invention and claims nothing about the original device's values (R8, decision D28; log entry 1). -/

namespace Sys2Proof.Machine

/-- `INC_T[i] = ((512 + (i mod 512)) << (i div 512)) << 7` (R8). -/
def incT (i : Nat) : BitVec 32 :=
  BitVec.ofNat 32 (((512 + i % 512) <<< (i / 512)) <<< 7)

/-- The parabolic stand-in for the sine (R9). -/
def sinT (i : Nat) : Half :=
  if i < 256 then BitVec.ofInt 16 ((i : Int) * (256 - i))
  else BitVec.ofInt 16 (-(((i : Int) - 256) * (512 - i)))

/-- `ramp(i)` of `95_test_vectors.md` section 2. -/
def rampT (i : Nat) : Int :=
  4 * (i : Int) - 2048

/-- `tri(i)` of `95_test_vectors.md` section 2. -/
def triT (i : Nat) : Int :=
  if i < 512 then 8 * (i : Int) - 2048 else 2048 - 8 * ((i : Int) - 512)

/-- `WT_T[j]` (`95_test_vectors.md` section 2). -/
def wtT (j : Nat) : WtTables where
  aH := tabulate 1024 fun i => BitVec.ofInt 16 (asr (rampT i) j)
  aV := tabulate 1024 fun i => BitVec.ofInt 16 (asr (triT i) j)
  bH := tabulate 1024 fun i => BitVec.ofInt 16 (asr (triT i) j)
  bV := tabulate 1024 fun i => BitVec.ofInt 16 (asr (-(rampT i)) j)

/-- A path point from its coordinates. -/
def pointT (x y z : Int) : PathPoint :=
  ⟨BitVec.ofInt 16 x, BitVec.ofInt 16 y, BitVec.ofInt 16 z⟩

/-- An arc record from its fields. -/
def arcT (mul : Int) (off : Nat) (rad cx cy : Int) : Arc :=
  ⟨BitVec.ofInt 8 mul, BitVec.ofNat 32 off, BitVec.ofInt 16 rad, BitVec.ofInt 16 cx, BitVec.ofInt 16 cy⟩

/-- `PATH_T[0]`. -/
def pathT0 : List PathPoint :=
  [pointT 1024 1024 1024, pointT (-1024) (-1024) 1024, pointT (-1024) 1024 (-1024), pointT 1024 (-1024) (-1024)]

/-- `PATH_T[1]`. -/
def pathT1 : List PathPoint :=
  [pointT 1024 0 0, pointT 0 1024 0, pointT 0 0 1024]

/-- `PATH_T[2]`. -/
def pathT2 : List PathPoint :=
  [pointT (-1024) (-1024) (-1024), pointT 1024 (-1024) (-1024), pointT 1024 1024 (-1024), pointT (-1024) 1024 (-1024),
   pointT (-1024) 1024 1024, pointT 1024 1024 1024, pointT 1024 (-1024) 1024, pointT (-1024) (-1024) 1024]

/-- CFG_T (R8). -/
def testConfig : Cfg where
  inc := tabulate 4096 incT
  sin := tabulate 512 sinT
  sinShift := 14
  growMin := 0
  rotGain := 1024#32
  fnArc := #v[arcT 4 0x40000000 256 0 768, arcT (-2) 0x40000000 1024 0 0,
              arcT 1 0xC0000000 1024 0 0, arcT 1 0x00000000 1024 0 0]
  fnFlipX := true
  fnFlipY := false
  path := #v[pathT0, pathT1, pathT2]
  isoK := 8192#16
  isoShift := 14
  meshGain := 3#16
  meshShift := 1
  wt := #v[wtT 0, wtT 1, wtT 2]
  wtGainX := 1#16
  wtGainY := 1#16
  wtShift := 0
  attShift := 12
  deadband := 16
  lpfCoef := 3
  lpfShift := 2
  gdesc := [[0x00#8], [0x01#8, 0x05#8, 0x09#8], [0x02#8, 0x06#8, 0x0A#8]]
  fs := none

end Sys2Proof.Machine
end

