-- ==== Sys2Proof/Syntax.lean ====
section
/-! DEFINITION. The operations of Trace CORE as syntax (`30_encoding.md` R77): one constructor of `Instr` per row of
opcode_table.json, with the operands of the operation's rule. A phase or a tick-word field is a word; every other
operand is the exact signed integer of `00_scope.md` R10. -/

namespace Sys2Proof

/-- The three legal switch positions, named as the stream notation names them (R73, R84). -/
inductive Switch where
  | att
  | ofs
  | ofs2
deriving DecidableEq, Repr

/-- The fields of a well-formed tick word (R71 to R74), after decoding. -/
structure TickWord where
  freq : Half
  cv : Half
  ctl1 : Half
  aud1 : Half
  ctl2 : Half
  aud2 : Half
  sw : Switch
  trigOsc : Bool
  trigBank : Bool
  trigSlot : Bool
deriving DecidableEq, Repr

/-- The two tables of a wavetable generator (R151). -/
inductive WtSide where
  | a
  | b
deriving DecidableEq, Repr

/-- The two channels of a stereo table (R151). -/
inductive WtChannel where
  | h
  | v
deriving DecidableEq, Repr

/-- The tables `LUT.READ` is applied to (R111, R112): the sine table and the twelve wavetable channels. -/
inductive SampleTable where
  | sin
  | wt (j : Fin 3) (side : WtSide) (channel : WtChannel)
deriving DecidableEq, Repr

/-- The operand `k` of `LUT.READ`: the index bits of a table, 9 for `SIN` and 10 for a wavetable channel (R111, R112). -/
def SampleTable.indexBits : SampleTable → Nat
  | .sin => 9
  | .wt _ _ _ => 10

/-- The seven generator instances (R120), by variant and instance. -/
inductive Generator where
  | fn
  | mesh (j : Fin 3)
  | wt (j : Fin 3)
deriving DecidableEq, Repr

/-- Every operation of R77. The slot-G operations take no phase or modulation operand: they read `PH`, `MOD1` and
`MOD2`, as the table's `operands` column says (log entry 13). -/
inductive Instr where
  /-- `PHASE.ADV(freq, cv) -> p`, slot P (R101). -/
  | phaseAdv (freq cv : Half)
  /-- `ROT.ADV(i, rm) -> a` (R104). -/
  | rotAdv (i : Fin 4) (rm : Int)
  /-- `LUT.READ(T, k, p) -> s` (R111); `k` is the table's own (R112). -/
  | lutRead (t : SampleTable) (p : Phase)
  /-- `LUT.SIN(p) -> s` (R113). -/
  | lutSin (p : Phase)
  /-- `LUT.COS(p) -> c` (R114). -/
  | lutCos (p : Phase)
  /-- `GROW.SCALE(p, gm) -> gp` (R122). -/
  | growScale (p : Phase) (gm : Int)
  /-- `FN.ARC(gp) -> (x0, y0)` (R124). -/
  | fnArc (gp : Phase)
  /-- `FN.FLIP(p, x0, y0) -> (x1, y1)` (R125). -/
  | fnFlip (p : Phase) (x0 y0 : Int)
  /-- `ROT2D(x1, y1, a) -> (x, y)` (R126). -/
  | rot2d (x1 y1 : Int) (a : Phase)
  /-- `SHAPE.FN -> (x, y)`, slot G, `KIND = 0` (R127). -/
  | shapeFn
  /-- `PATH.INTERP(j, gp) -> (px, py, pz)` (R141). -/
  | pathInterp (j : Fin 3) (gp : Phase)
  /-- `ROT3D.Y(px, py, pz, a) -> (xr, yr, zr)` (R143). -/
  | rot3dY (px py pz : Int) (a : Phase)
  /-- `ISO.PROJ(xr, yr, zr) -> (h, v)` (R144). -/
  | isoProj (xr yr zr : Int)
  /-- `MESH.SCALE(h, v) -> (x, y)` (R145). -/
  | meshScale (h v : Int)
  /-- `SHAPE.MESH(j) -> (x, y)`, slot G, `KIND = 1` (R142). -/
  | shapeMesh (j : Fin 3)
  /-- `WT.FETCH(j, gp) -> (ah, av, bh, bv)` (R151). -/
  | wtFetch (j : Fin 3) (gp : Phase)
  /-- `MORPH.MIX(a, b, m) -> r` (R152). -/
  | morphMix (a b m : Int)
  /-- `WT.SCALE(mx, my) -> (x, y)` (R153). -/
  | wtScale (mx my : Int)
  /-- `SHAPE.WT(j) -> (x, y)`, slot G, `KIND = 2` (R150). -/
  | shapeWt (j : Fin 3)
  /-- `MOD.ROUTE.ATT(ctl1, ctl2, cv1, aud1, aud2) -> (m1, m2)`, slot M, `SW = 0` (R163). -/
  | modRouteAtt (ctl1 ctl2 cv1 aud1 aud2 : Half)
  /-- `MOD.ROUTE.OFS(…)`, slot M, the row selected by `SW = 1` (R164). -/
  | modRouteOfs (ctl1 ctl2 cv1 aud1 aud2 : Half)
  /-- `MOD.ROUTE.OFS(…)`, slot M, the row selected by `SW = 2` (R164; log entry 12). -/
  | modRouteOfs2 (ctl1 ctl2 cv1 aud1 aud2 : Half)
  /-- `GUARD.FREEZE(ctl1, ctl2)` (R165). -/
  | guardFreeze (ctl1 ctl2 : Half)
  /-- `GUARD.RELEASE(ctl1, ctl2)` (R166). -/
  | guardRelease (ctl1 ctl2 : Half)
  /-- `SEL.ADVOSC`, slot S (R172). -/
  | selAdvOsc
  /-- `SEL.ADVBANK`, slot S (R173). -/
  | selAdvBank
  /-- `SEL.ADVSLOT`, slot S (R174). -/
  | selAdvSlot
  /-- `LPF.STEP(rx, ry) -> (X, Y)`, slot F (R181). -/
  | lpfStep (rx ry : Int)
  /-- `TICK(w) -> o`, with the fields of its tick word (R190). -/
  | tick (t : TickWord)
  /-- `RESET` (R220). -/
  | reset
deriving DecidableEq, Repr

end Sys2Proof
end

