-- ==== Sys2Proof/Machine/State.lean ====
section
/-! DEFINITION. The state of Trace CORE: the registers of `10_state.md` R20, and beside them the model's own fields (the
configuration, the reset-given bit, what the last operation returned, and the host's events to come), each named as such.
The reasons a step can stop, and the state right after reset (R36, R220). -/

namespace Sys2Proof.Machine

/-- The logical router mode, `MODE`: 0 = attenuate, 1 = offset (R27, R73). -/
inductive RouterMode where
  | attenuate
  | offset
deriving DecidableEq, Repr

/-- A pair of results, such as a raw sample pair (R121). -/
structure Pt2 where
  x : Int
  y : Int
deriving DecidableEq, Repr

/-- A 3-D point as integers (R141, R143). -/
structure Pt3 where
  x : Int
  y : Int
  z : Int
deriving DecidableEq, Repr

/-- The four samples of `WT.FETCH` (R151). -/
structure WtSamples where
  ah : Int
  av : Int
  bh : Int
  bv : Int
deriving DecidableEq, Repr

/-- What an operation returns (the arrows of R84 and of every operation rule). The model's own field, no register
(DESIGN CHOICE, log entry 3). -/
inductive OpResult where
  /-- Nothing: `GUARD.*`, `SEL.*`, `RESET`. -/
  | nothing
  /-- A phase: `PHASE.ADV`, `ROT.ADV`, `GROW.SCALE`. -/
  | phase (p : Phase)
  /-- One sample: `LUT.*`, `MORPH.MIX`. -/
  | sample (v : Int)
  /-- A pair: `FN.*`, `ROT2D`, `ISO.PROJ`, `MESH.SCALE`, `WT.SCALE`, `SHAPE.*`, `MOD.ROUTE.*`, `LPF.STEP`. -/
  | pair (p : Pt2)
  /-- A 3-D point: `PATH.INTERP`, `ROT3D.Y`. -/
  | triple (p : Pt3)
  /-- The four samples of `WT.FETCH`. -/
  | samples (w : WtSamples)
  /-- The output word of `TICK` (R78). -/
  | outWord (o : OutBits)
deriving DecidableEq, Repr

/-- What the host presents to the block (R194): the reset event, or a tick word as raw bits. -/
inductive HostEvent where
  | reset
  | tick (w : TickBits)
deriving DecidableEq, Repr

/-- Why the machine stops where the spec gives no next state. Every one of them is an index outside its table, against
the precondition of `TblRead` (R52), in a state that no run reaches (R29, R53, R195). All safe: the model stops. -/
inductive Fault where
  /-- Raised by `PATH.INTERP` and `SHAPE.MESH` on a path of no points (`PATH_LEN >= 1`, R8). Safe. -/
  | emptyPath
  /-- Raised by `SEL.*` when `BANK` is no bank of the layout, or the layout has no bank (R29, R171). Safe. -/
  | noSuchBank
  /-- Raised by `TICK` when `GDESC[BANK][SLOT]` does not exist (R29, R80). Safe. -/
  | noSuchDescriptor
deriving DecidableEq, Repr

/-- What the model refuses (R203). -/
inductive Refusal where
  /-- An operation with no meaning yet: none in this model. Safe. -/
  | notModelled (mnemonic : String)
  /-- Raised by the fetch of a tick word with `TICKW[127:101] != 0` (R75, R203 (a)). Safe. -/
  | reservedTickBits
  /-- Raised by the fetch of a tick word with `SW = 3` (R73, R203 (a)). Safe. -/
  | reservedSwitch
  /-- Raised by `TICK` and `RESET` under a configuration that is not well-formed (R195, R203 (b)). Safe. -/
  | illFormedConfig
  /-- Raised by `TICK` before the first `RESET` (R222, R203 (c)). Safe. -/
  | tickBeforeReset
deriving DecidableEq, Repr

/-- The state. -/
structure State where
  /-- `PH`, the master phase (R21). -/
  ph : Phase
  /-- `ROT[0..3]`, the rotation phases (R22). -/
  rot : Vector Phase 4
  /-- `FX`, signed (R23). -/
  fx : Word32
  /-- `FY`, signed (R23). -/
  fy : Word32
  /-- `MOD1`, signed (R24). -/
  mod1 : Word32
  /-- `MOD2`, signed (R24). -/
  mod2 : Word32
  /-- `G1` (R25). -/
  g1 : Bool
  /-- `G2` (R25). -/
  g2 : Bool
  /-- `REF1`, signed (R26). -/
  ref1 : Half
  /-- `REF2`, signed (R26). -/
  ref2 : Half
  /-- `MODE` (R27). -/
  mode : RouterMode
  /-- `MODE_V` (R27). -/
  modeV : Bool
  /-- `BANK` (R29). -/
  bank : BitVec 4
  /-- `SLOT` (R29). -/
  slot : BitVec 4
  /-- The configuration and the table ROM (R8, R32): constant for a run, no register (log entry 1). -/
  cfg : Cfg
  /-- Whether a `RESET` has been given (R222): no register (log entry 4). -/
  started : Bool
  /-- What the last operation returned: no register (log entry 3). -/
  result : OpResult
  /-- The events the host has yet to present, the next first: no register (R28, R194; log entry 2). -/
  pending : List HostEvent
deriving DecidableEq, Repr

/-- The machine right after reset: the registers as R36 and R220 say, with CFG_T in place (R223; DESIGN CHOICE, log
entry 1) and no event presented. The zeros of `ROT`, `MOD1`, `MOD2`, `G1`, `G2`, `REF1`, `REF2`, `MODE`, `MODE_V` are the
spec's decisions D17 and D24 (log entry 5). -/
def State.reset : State where
  ph := 0#32
  rot := #v[0#32, 0#32, 0#32, 0#32]
  fx := 0#32
  fy := 0#32
  mod1 := 0#32
  mod2 := 0#32
  g1 := false
  g2 := false
  ref1 := 0#16
  ref2 := 0#16
  mode := .attenuate
  modeV := false
  bank := 0#4
  slot := 0#4
  cfg := testConfig
  started := true
  result := .nothing
  pending := []

end Sys2Proof.Machine
end

