-- ==== Sys2Proof/Machine/Ops.lean ====
section
/-! DEFINITION. The named operations over registers and tables: one update per register (the only places a register is
written), what an operation returns, `TblRead` on each table (`20_memory.md` R52), and the chaining of operations inside a
tick. The block raises no exception and has none to return from (`60_exceptions.md` R200, R206, R207), so there is no
exception entry here. -/

namespace Sys2Proof.Machine

/-! ### Register writes (R20, R39) -/

/-- `PH <- v`. -/
def setPh (v : Phase) (s : State) : State := { s with ph := v }

/-- `ROT[i] <- v`. -/
def setRot (i : Fin 4) (v : Phase) (s : State) : State := { s with rot := s.rot.set i v }

/-- `FX <- x; FY <- y`. -/
def setFilter (x y : Word32) (s : State) : State := { s with fx := x, fy := y }

/-- `MOD1 <- v`. -/
def setMod1 (v : Word32) (s : State) : State := { s with mod1 := v }

/-- `MOD2 <- v`. -/
def setMod2 (v : Word32) (s : State) : State := { s with mod2 := v }

/-- `G1 <- a; G2 <- b`. -/
def setGuards (a b : Bool) (s : State) : State := { s with g1 := a, g2 := b }

/-- `REF1 <- a; REF2 <- b`. -/
def setRefs (a b : Half) (s : State) : State := { s with ref1 := a, ref2 := b }

/-- `MODE <- m; MODE_V <- 1` (R162). -/
def setMode (m : RouterMode) (s : State) : State := { s with mode := m, modeV := true }

/-- `BANK <- b; SLOT <- k`. -/
def setSelector (b k : BitVec 4) (s : State) : State := { s with bank := b, slot := k }

/-- The result of an operation (log entry 3). -/
def answer (r : OpResult) (s : State) : State := { s with result := r }

/-- The events the host has yet to present (log entry 2). -/
def setPending (l : List HostEvent) (s : State) : State := { s with pending := l }

/-! ### Table reads: `TblRead(T, i)` (R52). The index of each has the table's length in its type (R53), but for a path and
the descriptor table, whose lengths are data. -/

/-- The table that `LUT.READ` reads (R111, R112). -/
def sampleTable (c : Cfg) (t : SampleTable) : Vector Half (2 ^ t.indexBits) :=
  match t with
  | .sin => c.sin
  | .wt j .a .h => c.wt[j].aH
  | .wt j .a .v => c.wt[j].aV
  | .wt j .b .h => c.wt[j].bH
  | .wt j .b .v => c.wt[j].bV

/-- `TblRead(T, i)` of a sample table, sign-extended (R52). -/
def readSample (c : Cfg) (t : SampleTable) (i : Fin (2 ^ t.indexBits)) : Int :=
  ((sampleTable c t)[i]).toInt

/-- `TblRead(INC, i)` (R52). -/
def readInc (c : Cfg) (i : Fin 4096) : BitVec 32 :=
  c.inc[i]

/-- `TblRead(FN_ARC, i)` (R52). -/
def readArc (c : Cfg) (i : Fin 4) : Arc :=
  c.fnArc[i]

/-- `TblRead(PATH[j], i)`, none past the path's end (R52). -/
def readPath (c : Cfg) (j : Fin 3) (i : Nat) : Option PathPoint :=
  (c.path[j])[i]?

/-- `PATH_LEN[j]` (R8). -/
def pathLen (c : Cfg) (j : Fin 3) : Nat :=
  (c.path[j]).length

/-- `BANK_COUNT` (R8, R171). -/
def bankCount (c : Cfg) : Nat :=
  c.gdesc.length

/-- `SLOTS[b]`, none where there is no such bank (R8, R171). -/
def slotCount (c : Cfg) (b : Nat) : Option Nat :=
  (c.gdesc[b]?).map List.length

/-- `TblRead(GDESC[b], k)`, none where there is no such slot (R52, R80). -/
def readDesc (c : Cfg) (b k : Nat) : Option DescBits :=
  (c.gdesc[b]?).bind fun l => l[k]?

/-! ### Sequencing -/

/-- One operation after another inside a tick: a stop of the first is the stop of both (R58 (a)). -/
def andThen (o : Host.Outcome State Fault Refusal) (f : State → Host.Outcome State Fault Refusal) :
    Host.Outcome State Fault Refusal :=
  match o with
  | .next s => f s
  | .fault r => .fault r
  | .refused r => .refused r

end Sys2Proof.Machine
end

