-- ==== Sys2Proof/Machine/Filter.lean ====
section
/-! DEFINITION. The output conditioner: `LPF.STEP` (`47_output_conditioner.md` R181). -/

namespace Sys2Proof.Machine

/-- The change of one channel: `asr((raw - filtered) * LPF_COEF, LPF_SHIFT)` (R181, R183). -/
def lpfDelta (c : Cfg) (f raw : Int) : Int :=
  asr ((raw - f) * (c.lpfCoef : Int)) c.lpfShift

/-- One channel: `wrap32s(filtered + delta)` (R181). -/
def lpfChannel (c : Cfg) (f : Word32) (raw : Int) : Word32 :=
  cut32 (f.toInt + lpfDelta c f.toInt raw)

/-- `FX`, `FY` after the step (R181). -/
def lpf (q : Pt2) (s : State) : State :=
  setFilter (lpfChannel s.cfg s.fx q.x) (lpfChannel s.cfg s.fy q.y) s

/-- `LPF.STEP(rx, ry) -> (X, Y)` (R181). -/
def execLpfStep (rx ry : Int) (s : State) : Host.Outcome State Fault Refusal :=
  let t := lpf ⟨rx, ry⟩ s
  .next (answer (.pair ⟨t.fx.toInt, t.fy.toInt⟩) t)

end Sys2Proof.Machine
end

