-- ==== Sys2Proof/Machine/Operands.lean ====
section
/-! DEFINITION. How an operation forms its operands: the clamps of the control values (`60_exceptions.md` R201), and the
three addressing modes of the tables (`20_memory.md` R65), each with its index in range by construction (R53). -/

namespace Sys2Proof.Machine

theorem clamp_bounds (v lo hi : Int) (h : lo ≤ hi) : lo ≤ clamp v lo hi ∧ clamp v lo hi ≤ hi := by
  unfold clamp; split
  · omega
  · split <;> omega

/-! ### Saturated operands -/

/-- The frequency index: the exact sum, clamped to 0..4095 (R101, decision D6). -/
def incIndex (freq cv : Half) : Fin 4096 :=
  ⟨(clamp (freq.toInt + cv.toInt) 0 4095).toNat, by
    have := clamp_bounds (freq.toInt + cv.toInt) 0 4095 (by omega); omega⟩

/-- The growth value, clamped to `GROW_MIN`..4096 (R122). -/
def growValue (c : Cfg) (gm : Int) : Int :=
  clamp gm (c.growMin.val : Int) 4096

/-- The rotation value, clamped to 0..4096 (R104). -/
def rotValue (rm : Int) : Int :=
  clamp rm 0 4096

/-- The morph weight, clamped to 0..4096 (R150). -/
def morphValue (mm : Int) : Int :=
  clamp mm 0 4096

/-! ### Phase-indexed with neighbour (R65 (1), R111) -/

theorem lutIndex_lt (t : SampleTable) (p : Phase) : p.toNat >>> (32 - t.indexBits) < 2 ^ t.indexBits := by
  have h := p.isLt
  cases t <;> simp only [SampleTable.indexBits, Nat.shiftRight_eq_div_pow] <;> omega

/-- The base index `p[31 : 32-k]`. -/
def lutIndex (t : SampleTable) (p : Phase) : Fin (2 ^ t.indexBits) :=
  ⟨p.toNat >>> (32 - t.indexBits), lutIndex_lt t p⟩

/-- The neighbour index `(i + 1) mod 2^k`. -/
def lutNext (t : SampleTable) (i : Fin (2 ^ t.indexBits)) : Fin (2 ^ t.indexBits) :=
  ⟨(i.val + 1) % 2 ^ t.indexBits, Nat.mod_lt _ (Nat.two_pow_pos _)⟩

/-- The weight `p[32-k-1 : 0]`. -/
def lutWeight (t : SampleTable) (p : Phase) : Nat :=
  p.toNat % 2 ^ (32 - t.indexBits)

/-! ### Scaled-phase-indexed with neighbour (R65 (2), R141) -/

/-- The segment index `(gp * L) >> 32`. -/
def segIndex (len : Nat) (gp : Phase) : Nat :=
  (gp.toNat * len) >>> 32

/-- The weight within the segment, `(gp * L) mod 2^32`. -/
def segWeight (len : Nat) (gp : Phase) : Nat :=
  (gp.toNat * len) % 2 ^ 32

/-! ### Direct (R65 (3), R124) -/

/-- The section `gp[31:30]`. -/
def arcIndex (gp : Phase) : Fin 4 :=
  ⟨gp.toNat >>> 30, by have h := gp.isLt; rw [Nat.shiftRight_eq_div_pow]; omega⟩

/-- The position inside the section, `gp[29:0]`. -/
def arcPosition (gp : Phase) : Nat :=
  gp.toNat % 2 ^ 30

end Sys2Proof.Machine
end

