-- ==== Sys2Proof/Machine/Flags.lean ====
section
/-! DEFINITION. The guard flags `G1`, `G2`, the only flags of the block (`10_state.md` R25): when they are set
(`45_modulation_router.md` R165) and when they are cleared (R166). No arithmetic operation has a flag side effect. -/

namespace Sys2Proof.Machine

/-- The control has moved by more than the deadband from its reference, in either direction (R166). -/
def movedPast (c : Cfg) (ctl ref : Half) : Bool :=
  decide (c.deadband < (ctl.toInt - ref.toInt).natAbs)

/-- `GUARD.FREEZE(ctl1, ctl2)` (R165). -/
def freeze (ctl1 ctl2 : Half) (s : State) : State :=
  setRefs ctl1 ctl2 (setGuards true true s)

/-- `GUARD.RELEASE(ctl1, ctl2)` (R166). -/
def release (ctl1 ctl2 : Half) (s : State) : State :=
  setGuards (s.g1 && !movedPast s.cfg ctl1 s.ref1) (s.g2 && !movedPast s.cfg ctl2 s.ref2) s

/-- A tick's mode differs from the mode of the tick before, where one is known (R162, R165). -/
def modeChanged (m : RouterMode) (s : State) : Bool :=
  s.modeV && s.mode != m

end Sys2Proof.Machine
end

