-- ==== Sys2Proof/Machine/Router.lean ====
section
/-! DEFINITION. The modulation router: `MOD.ROUTE.ATT`, `MOD.ROUTE.OFS` and the guard's two operations
(`45_modulation_router.md` R162 to R166). -/

namespace Sys2Proof.Machine

/-- `F_ATT(ctl, aud) = asr(aud * ctl, ATT_SHIFT)` (R163) and `F_OFS(ctl, aud) = ctl + aud` (R164). -/
def modFormula (c : Cfg) (m : RouterMode) (ctl aud : Half) : Int :=
  match m with
  | .attenuate => asr (aud.toInt * ctl.toInt) c.attShift
  | .offset => ctl.toInt + aud.toInt

/-- The router before its channels are computed: detect a change, freeze, record the mode, release (R162). -/
def routeGuards (m : RouterMode) (ctl1 ctl2 : Half) (s : State) : State :=
  let t := if modeChanged m s then freeze ctl1 ctl2 s else s
  release ctl1 ctl2 (setMode m t)

/-- Channel 1: a guarded channel keeps its register (R162). -/
def routeChannel1 (m : RouterMode) (ctl aud : Half) (s : State) : State :=
  if s.g1 then s else setMod1 (cut32 (modFormula s.cfg m ctl aud)) s

/-- Channel 2: a guarded channel keeps its register (R162). -/
def routeChannel2 (m : RouterMode) (ctl aud : Half) (s : State) : State :=
  if s.g2 then s else setMod2 (cut32 (modFormula s.cfg m ctl aud)) s

/-- `ROUTE(mode, F, ctl1, ctl2, cv1, aud1, aud2)` (R162); `cv1` appears in no line (R168). -/
def route (m : RouterMode) (ctl1 ctl2 _cv1 aud1 aud2 : Half) (s : State) : State :=
  routeChannel2 m ctl2 aud2 (routeChannel1 m ctl1 aud1 (routeGuards m ctl1 ctl2 s))

/-- The pair `(m1, m2)` the router returns (R162). -/
def routed (s : State) : OpResult :=
  .pair ⟨s.mod1.toInt, s.mod2.toInt⟩

/-- `MOD.ROUTE.ATT(ctl1, ctl2, cv1, aud1, aud2) -> (m1, m2)` (R163). -/
def execModRouteAtt (ctl1 ctl2 cv1 aud1 aud2 : Half) (s : State) : Host.Outcome State Fault Refusal :=
  let t := route .attenuate ctl1 ctl2 cv1 aud1 aud2 s
  .next (answer (routed t) t)

/-- `MOD.ROUTE.OFS(ctl1, ctl2, cv1, aud1, aud2) -> (m1, m2)`, the row of `SW = 1` (R164). -/
def execModRouteOfs (ctl1 ctl2 cv1 aud1 aud2 : Half) (s : State) : Host.Outcome State Fault Refusal :=
  let t := route .offset ctl1 ctl2 cv1 aud1 aud2 s
  .next (answer (routed t) t)

/-- `MOD.ROUTE.OFS(ctl1, ctl2, cv1, aud1, aud2) -> (m1, m2)`, the row of `SW = 2`: the same mode (R73, R161, R164). -/
def execModRouteOfs2 (ctl1 ctl2 cv1 aud1 aud2 : Half) (s : State) : Host.Outcome State Fault Refusal :=
  let t := route .offset ctl1 ctl2 cv1 aud1 aud2 s
  .next (answer (routed t) t)

/-- `GUARD.FREEZE(ctl1, ctl2)` (R165). -/
def execGuardFreeze (ctl1 ctl2 : Half) (s : State) : Host.Outcome State Fault Refusal :=
  .next (answer .nothing (freeze ctl1 ctl2 s))

/-- `GUARD.RELEASE(ctl1, ctl2)` (R166). -/
def execGuardRelease (ctl1 ctl2 : Half) (s : State) : Host.Outcome State Fault Refusal :=
  .next (answer .nothing (release ctl1 ctl2 s))

end Sys2Proof.Machine
end

