-- ==== Sys2Proof/Machine/Selector.lean ====
section
/-! DEFINITION. The bank and oscillator selector: `SEL.ADVOSC`, `SEL.ADVBANK`, `SEL.ADVSLOT` (`46_selector.md` R172 to
R174). The layout's counts are data, so an index that names no bank is a named fault; R29 keeps every run from it. -/

namespace Sys2Proof.Machine

/-- `(BANK + 1) mod BANK_COUNT` (R172, R173). -/
def nextBank (s : State) : BitVec 4 :=
  BitVec.ofNat 4 ((s.bank.toNat + 1) % bankCount s.cfg)

/-- `SEL.ADVOSC` (R172); none where `SLOTS[BANK]` does not exist. -/
def advOsc (s : State) : Option State :=
  match slotCount s.cfg s.bank.toNat with
  | some n =>
    if s.slot.toNat + 1 = n then some (setSelector (nextBank s) 0#4 s)
    else some (setSelector s.bank (s.slot + 1#4) s)
  | none => none

/-- `SEL.ADVBANK` (R173); none where the layout has no bank, since `a mod m` requires `m > 0` (R11). -/
def advBank (s : State) : Option State :=
  if bankCount s.cfg = 0 then none else some (setSelector (nextBank s) 0#4 s)

/-- `SEL.ADVSLOT` (R174); none where `SLOTS[BANK]` does not exist or is 0. -/
def advSlot (s : State) : Option State :=
  match slotCount s.cfg s.bank.toNat with
  | some n =>
    if n = 0 then none else some (setSelector s.bank (BitVec.ofNat 4 ((s.slot.toNat + 1) % n)) s)
  | none => none

/-- A selector operation's outcome: it returns nothing (R84). -/
def selected (o : Option State) : Host.Outcome State Fault Refusal :=
  match o with
  | some t => .next (answer .nothing t)
  | none => .fault .noSuchBank

/-- `SEL.ADVOSC` (R172). -/
def execSelAdvOsc (s : State) : Host.Outcome State Fault Refusal :=
  selected (advOsc s)

/-- `SEL.ADVBANK` (R173). -/
def execSelAdvBank (s : State) : Host.Outcome State Fault Refusal :=
  selected (advBank s)

/-- `SEL.ADVSLOT` (R174). -/
def execSelAdvSlot (s : State) : Host.Outcome State Fault Refusal :=
  selected (advSlot s)

end Sys2Proof.Machine
end

