-- ==== Sys2Proof/WellFormed.lean ====
section
/-! DEFINITION. When a tick word and an operation's operands are ones the spec gives a meaning
(`30_encoding.md` R75; the operand lines of R152 and R181). The types of Syntax.lean enforce every other range. -/

namespace Sys2Proof

/-- `TICKW[127:101] = 0 and TICKW[97:96] != 3` (R75). -/
def tickWellFormed (w : TickBits) : Bool :=
  w.extractLsb' 101 27 == 0#27 && w.extractLsb' 96 2 != 3#2

/-- The signed 32-bit words as integers (R10). -/
def fitsS32 (v : Int) : Bool :=
  decide (-2147483648 ≤ v) && decide (v ≤ 2147483647)

/-- The operand ranges that the operations' rules state and the types do not: the raw samples of `LPF.STEP` fit 32
bits (R181), and the weight of `MORPH.MIX` is 0..4096 (R152). -/
def Instr.wellFormed : Instr → Bool
  | .lpfStep rx ry => fitsS32 rx && fitsS32 ry
  | .morphMix _ _ m => decide (0 ≤ m) && decide (m ≤ 4096)
  | .phaseAdv _ _ => true
  | .rotAdv _ _ => true
  | .lutRead _ _ => true
  | .lutSin _ => true
  | .lutCos _ => true
  | .growScale _ _ => true
  | .fnArc _ => true
  | .fnFlip _ _ _ => true
  | .rot2d _ _ _ => true
  | .shapeFn => true
  | .pathInterp _ _ => true
  | .rot3dY _ _ _ _ => true
  | .isoProj _ _ _ => true
  | .meshScale _ _ => true
  | .shapeMesh _ => true
  | .wtFetch _ _ => true
  | .wtScale _ _ => true
  | .shapeWt _ => true
  | .modRouteAtt _ _ _ _ _ => true
  | .modRouteOfs _ _ _ _ _ => true
  | .modRouteOfs2 _ _ _ _ _ => true
  | .guardFreeze _ _ => true
  | .guardRelease _ _ => true
  | .selAdvOsc => true
  | .selAdvBank => true
  | .selAdvSlot => true
  | .tick _ => true
  | .reset => true

end Sys2Proof
end

