-- ==== Sys2Proof/Decode.lean ====
section
/-! DEFINITION. The words of `30_encoding.md`: the tick word (R71 to R75), the generator descriptor (R80, R81), the
output word (R78), the list of slot operations a tick word selects (R76), and the operation identifiers (R77).
Decoding is total and rejects by name; the encoder below it is written from the same layouts. -/

namespace Sys2Proof

/-- Why a word has no meaning (R82). -/
inductive DecodeError where
  /-- `TICKW[127:101]` is not zero (R75). -/
  | reservedTickBits
  /-- `SW = 3` (R73). -/
  | reservedSwitch
  /-- `GDESC[7:4]` is not zero (R80). -/
  | reservedDescBits
  /-- `KIND = 3` (R81). -/
  | reservedKind
  /-- `INST` out of range for its `KIND` (R80). -/
  | reservedInst
deriving DecidableEq, Repr

/-- The switch position a 2-bit code names; code 3 names none (R73). -/
def decodeSwitch (c : BitVec 2) : Option Switch :=
  if c = 0#2 then some .att
  else if c = 1#2 then some .ofs
  else if c = 2#2 then some .ofs2
  else none

/-- The fields of a tick word (R71), or why it has no meaning (R75). -/
def decodeTick (w : TickBits) : Except DecodeError TickWord :=
  if w.extractLsb' 101 27 ≠ 0#27 then .error .reservedTickBits
  else
    match decodeSwitch (w.extractLsb' 96 2) with
    | none => .error .reservedSwitch
    | some sw => .ok {
        freq := w.extractLsb' 0 16
        cv := w.extractLsb' 16 16
        ctl1 := w.extractLsb' 32 16
        aud1 := w.extractLsb' 48 16
        ctl2 := w.extractLsb' 64 16
        aud2 := w.extractLsb' 80 16
        sw := sw
        trigOsc := w.getLsbD 98
        trigBank := w.getLsbD 99
        trigSlot := w.getLsbD 100 }

/-- The instance a 2-bit `INST` code names for a `MESH` or `WT` descriptor: 0, 1, 2 (R80). -/
def decodeInst (c : BitVec 2) : Option (Fin 3) :=
  if c = 0#2 then some 0
  else if c = 1#2 then some 1
  else if c = 2#2 then some 2
  else none

/-- The generator a descriptor names (R76, R80, R81), or why it names none (R82). -/
def decodeDesc (d : DescBits) : Except DecodeError Generator :=
  if d.extractLsb' 4 4 ≠ 0#4 then .error .reservedDescBits
  else
    let kind := d.extractLsb' 0 2
    let code := d.extractLsb' 2 2
    if kind = 0#2 then
      if code = 0#2 then .ok .fn else .error .reservedInst
    else if kind = 1#2 then
      match decodeInst code with
      | some j => .ok (.mesh j)
      | none => .error .reservedInst
    else if kind = 2#2 then
      match decodeInst code with
      | some j => .ok (.wt j)
      | none => .error .reservedInst
    else .error .reservedKind

/-- The slot-G operation of a generator (R76). -/
def generatorOp : Generator → Instr
  | .fn => .shapeFn
  | .mesh j => .shapeMesh j
  | .wt j => .shapeWt j

/-- The instruction an `nbits`-bit word is: up to 8 bits a descriptor, up to 128 bits a tick word, the missing bits 0
(R88's `decode_word`). No other operation is decoded from a word (R77). -/
def decodeTableWord (nbits w : Nat) : Option Instr :=
  if 2 ^ nbits ≤ w then none
  else if nbits = 0 then none
  else if nbits ≤ 8 then
    match decodeDesc (BitVec.ofNat 8 w) with
    | .ok g => some (generatorOp g)
    | .error _ => none
  else if nbits ≤ 128 then
    match decodeTick (BitVec.ofNat 128 w) with
    | .ok t => some (.tick t)
    | .error _ => none
  else none

/-- The slot-M operation of a tick (R76); the tick passes 0 for `cv1` (R163, R168, R190). -/
def routeOp (t : TickWord) : Instr :=
  match t.sw with
  | .att => .modRouteAtt t.ctl1 t.ctl2 0#16 t.aud1 t.aud2
  | .ofs => .modRouteOfs t.ctl1 t.ctl2 0#16 t.aud1 t.aud2
  | .ofs2 => .modRouteOfs2 t.ctl1 t.ctl2 0#16 t.aud1 t.aud2

/-- The operations of slots P, M and S that a tick word selects, in execution order (R76). Slot G's operation is
decoded from the descriptor (`decodeDesc`), and slot F's is `LPF.STEP` on its result. -/
def tickOps (t : TickWord) : List Instr :=
  [.phaseAdv t.freq t.cv, routeOp t]
    ++ (if t.trigOsc then [.selAdvOsc] else [])
    ++ (if t.trigBank then [.selAdvBank] else [])
    ++ (if t.trigSlot then [.selAdvSlot] else [])

/-! ### The encoder -/

/-- The `SW` code of a switch position (R73). -/
def encodeSwitch : Switch → BitVec 2
  | .att => 0#2
  | .ofs => 1#2
  | .ofs2 => 2#2

/-- The tick word with the given fields, reserved bits zero (R71). -/
def encodeTick (t : TickWord) : TickBits :=
  0#27 ++ BitVec.ofBool t.trigSlot ++ BitVec.ofBool t.trigBank ++ BitVec.ofBool t.trigOsc ++ encodeSwitch t.sw
    ++ t.aud2 ++ t.ctl2 ++ t.aud1 ++ t.ctl1 ++ t.cv ++ t.freq

/-- The descriptor word with the given `KIND` and `INST`, bits 7:4 zero (R80). -/
def encodeDesc (kind code : BitVec 2) : DescBits :=
  0#4 ++ code ++ kind

/-- The word an operation is decoded from, as its width and its value; most operations have none (R77, R88). -/
def encode : Instr → Option (Nat × Nat)
  | .tick t => some (128, (encodeTick t).toNat)
  | .shapeFn => some (8, (encodeDesc 0#2 0#2).toNat)
  | .shapeMesh j => some (8, (encodeDesc 1#2 (BitVec.ofNat 2 j.val)).toNat)
  | .shapeWt j => some (8, (encodeDesc 2#2 (BitVec.ofNat 2 j.val)).toNat)
  | .phaseAdv _ _ => none
  | .rotAdv _ _ => none
  | .lutRead _ _ => none
  | .lutSin _ => none
  | .lutCos _ => none
  | .growScale _ _ => none
  | .fnArc _ => none
  | .fnFlip _ _ _ => none
  | .rot2d _ _ _ => none
  | .pathInterp _ _ => none
  | .rot3dY _ _ _ _ => none
  | .isoProj _ _ _ => none
  | .meshScale _ _ => none
  | .wtFetch _ _ => none
  | .morphMix _ _ _ => none
  | .wtScale _ _ => none
  | .modRouteAtt _ _ _ _ _ => none
  | .modRouteOfs _ _ _ _ _ => none
  | .modRouteOfs2 _ _ _ _ _ => none
  | .guardFreeze _ _ => none
  | .guardRelease _ _ => none
  | .selAdvOsc => none
  | .selAdvBank => none
  | .selAdvSlot => none
  | .lpfStep _ _ => none
  | .reset => none

/-! ### The output word -/

/-- The output word (R78): `{0[23:0], SLOT, BANK, Y, X}`. -/
def encodeOut (x y : Word32) (bank slot : BitVec 4) : OutBits :=
  0#24 ++ slot ++ bank ++ y ++ x

/-- The field `X` of an output word (R78). -/
def outX (o : OutBits) : Int := (o.extractLsb' 0 32).toInt

/-- The field `Y` of an output word (R78). -/
def outY (o : OutBits) : Int := (o.extractLsb' 32 32).toInt

/-- The field `BANK` of an output word (R78). -/
def outBank (o : OutBits) : BitVec 4 := o.extractLsb' 64 4

/-- The field `SLOT` of an output word (R78). -/
def outSlot (o : OutBits) : BitVec 4 := o.extractLsb' 68 4

/-! ### Operation identifiers -/

/-- `OPID` (R77); it appears in no word the hardware sees. -/
def opid : Instr → BitVec 8
  | .phaseAdv _ _ => 0x01#8
  | .rotAdv _ _ => 0x02#8
  | .lutRead _ _ => 0x10#8
  | .lutSin _ => 0x11#8
  | .lutCos _ => 0x12#8
  | .growScale _ _ => 0x20#8
  | .fnArc _ => 0x21#8
  | .fnFlip _ _ _ => 0x22#8
  | .rot2d _ _ _ => 0x23#8
  | .shapeFn => 0x24#8
  | .pathInterp _ _ => 0x30#8
  | .rot3dY _ _ _ _ => 0x31#8
  | .isoProj _ _ _ => 0x32#8
  | .meshScale _ _ => 0x33#8
  | .shapeMesh _ => 0x34#8
  | .wtFetch _ _ => 0x40#8
  | .morphMix _ _ _ => 0x41#8
  | .wtScale _ _ => 0x42#8
  | .shapeWt _ => 0x43#8
  | .modRouteAtt _ _ _ _ _ => 0x50#8
  | .modRouteOfs _ _ _ _ _ => 0x51#8
  | .modRouteOfs2 _ _ _ _ _ => 0x51#8
  | .guardFreeze _ _ => 0x52#8
  | .guardRelease _ _ => 0x53#8
  | .selAdvOsc => 0x60#8
  | .selAdvBank => 0x61#8
  | .selAdvSlot => 0x62#8
  | .lpfStep _ _ => 0x70#8
  | .tick _ => 0x7E#8
  | .reset => 0x7F#8

/-- The mnemonic of an operation (R77). -/
def mnemonic : Instr → String
  | .phaseAdv _ _ => "PHASE.ADV"
  | .rotAdv _ _ => "ROT.ADV"
  | .lutRead _ _ => "LUT.READ"
  | .lutSin _ => "LUT.SIN"
  | .lutCos _ => "LUT.COS"
  | .growScale _ _ => "GROW.SCALE"
  | .fnArc _ => "FN.ARC"
  | .fnFlip _ _ _ => "FN.FLIP"
  | .rot2d _ _ _ => "ROT2D"
  | .shapeFn => "SHAPE.FN"
  | .pathInterp _ _ => "PATH.INTERP"
  | .rot3dY _ _ _ _ => "ROT3D.Y"
  | .isoProj _ _ _ => "ISO.PROJ"
  | .meshScale _ _ => "MESH.SCALE"
  | .shapeMesh _ => "SHAPE.MESH"
  | .wtFetch _ _ => "WT.FETCH"
  | .morphMix _ _ _ => "MORPH.MIX"
  | .wtScale _ _ => "WT.SCALE"
  | .shapeWt _ => "SHAPE.WT"
  | .modRouteAtt _ _ _ _ _ => "MOD.ROUTE.ATT"
  | .modRouteOfs _ _ _ _ _ => "MOD.ROUTE.OFS"
  | .modRouteOfs2 _ _ _ _ _ => "MOD.ROUTE.OFS"
  | .guardFreeze _ _ => "GUARD.FREEZE"
  | .guardRelease _ _ => "GUARD.RELEASE"
  | .selAdvOsc => "SEL.ADVOSC"
  | .selAdvBank => "SEL.ADVBANK"
  | .selAdvSlot => "SEL.ADVSLOT"
  | .lpfStep _ _ => "LPF.STEP"
  | .tick _ => "TICK"
  | .reset => "RESET"

end Sys2Proof
end

