-- ==== Sys2Proof/Machine/Lookup.lean ====
section
/-! DEFINITION. The interpolated table lookup: `LUT.READ`, `LUT.SIN`, `LUT.COS` (`41_lut_read.md` R111, R113, R114). -/

namespace Sys2Proof.Machine

/-- `LUT.READ(T, k, p)`, a pure function of the table and the phase (R110, R111). -/
def lutRead (c : Cfg) (t : SampleTable) (p : Phase) : Int :=
  let i := lutIndex t p
  interpolate (readSample c t i) (readSample c t (lutNext t i)) (lutWeight t p) (32 - t.indexBits)

/-- `LUT.SIN(p) = LUT.READ(SIN, 9, p)` (R113). -/
def lutSin (c : Cfg) (p : Phase) : Int :=
  lutRead c .sin p

/-- `LUT.COS(p) = LUT.READ(SIN, 9, (p + 2^30) mod 2^32)` (R114). -/
def lutCos (c : Cfg) (p : Phase) : Int :=
  lutRead c .sin (p + 0x40000000#32)

/-- `LUT.READ(T, k, p) -> s` (R111). -/
def execLutRead (t : SampleTable) (p : Phase) (s : State) : Host.Outcome State Fault Refusal :=
  .next (answer (.sample (lutRead s.cfg t p)) s)

/-- `LUT.SIN(p) -> s` (R113). -/
def execLutSin (p : Phase) (s : State) : Host.Outcome State Fault Refusal :=
  .next (answer (.sample (lutSin s.cfg p)) s)

/-- `LUT.COS(p) -> c` (R114). -/
def execLutCos (p : Phase) (s : State) : Host.Outcome State Fault Refusal :=
  .next (answer (.sample (lutCos s.cfg p)) s)

end Sys2Proof.Machine
end

