-- ==== Sys2Proof/Machine/PhaseEngine.lean ====
section
/-! DEFINITION. The phase engine: `PHASE.ADV` and `ROT.ADV` (`40_phase_engine.md` R101, R104). -/

namespace Sys2Proof.Machine

/-- `PH <- (PH + INC[idx]) mod 2^32` (R101). -/
def advancePhase (freq cv : Half) (s : State) : State :=
  setPh (s.ph + readInc s.cfg (incIndex freq cv)) s

/-- The rotation increment `((r - 2048) * ROT_GAIN) mod 2^32` (R104). -/
def rotDelta (c : Cfg) (rm : Int) : BitVec 32 :=
  cut32 ((rotValue rm - 2048) * (c.rotGain.toNat : Int))

/-- `ROT[i] <- (ROT[i] + d) mod 2^32` (R104). -/
def advanceRot (i : Fin 4) (rm : Int) (s : State) : State :=
  setRot i (s.rot[i] + rotDelta s.cfg rm) s

/-- `PHASE.ADV(freq, cv) -> p`, the phase after the addition (R101, decision D5). -/
def execPhaseAdv (freq cv : Half) (s : State) : Host.Outcome State Fault Refusal :=
  let t := advancePhase freq cv s
  .next (answer (.phase t.ph) t)

/-- `ROT.ADV(i, rm) -> a`, the rotation phase after the advance (R104, decision D8). -/
def execRotAdv (i : Fin 4) (rm : Int) (s : State) : Host.Outcome State Fault Refusal :=
  let t := advanceRot i rm s
  .next (answer (.phase t.rot[i]) t)

end Sys2Proof.Machine
end

