-- ==== Sys2Proof/Machine/ShapeFn.lean ====
section
/-! DEFINITION. The common growth rescale and the function-defined generator: `GROW.SCALE`, `FN.ARC`, `FN.FLIP`, `ROT2D`,
`SHAPE.FN` (`42_shape_function.md` R122, R124 to R127). -/

namespace Sys2Proof.Machine

/-- `gp = (p * g) >> 12` (R122). -/
def growScale (c : Cfg) (p : Phase) (gm : Int) : Phase :=
  BitVec.ofNat 32 ((p.toNat * (growValue c gm).toNat) >>> 12)

/-- The angle of an arc, `(OFF + MUL * loc) mod 2^32` (R124). -/
def arcAngle (arc : Arc) (loc : Nat) : Phase :=
  cut32 ((arc.off.toNat : Int) + arc.mul.toInt * (loc : Int))

/-- `FN.ARC(gp)` (R124). -/
def fnArc (c : Cfg) (gp : Phase) : Pt2 :=
  let arc := readArc c (arcIndex gp)
  let th := arcAngle arc (arcPosition gp)
  { x := arc.cx.toInt + asr (arc.rad.toInt * lutCos c th) c.sinShift
    y := arc.cy.toInt + asr (arc.rad.toInt * lutSin c th) c.sinShift }

/-- `FN.FLIP(p, x0, y0)`, on the top bit of the original phase (R125). -/
def fnFlip (c : Cfg) (p : Phase) (q : Pt2) : Pt2 :=
  if p.getLsbD 31 then
    { x := if c.fnFlipX then -q.x else q.x
      y := if c.fnFlipY then -q.y else q.y }
  else q

/-- `ROT2D(x1, y1, a)`, counter-clockwise (R126, decision D13). -/
def rot2d (c : Cfg) (q : Pt2) (a : Phase) : Pt2 :=
  let co := lutCos c a
  let si := lutSin c a
  { x := asr (q.x * co - q.y * si) c.sinShift
    y := asr (q.x * si + q.y * co) c.sinShift }

/-- The raw pair of the function-defined generator at rotation phase `a` (R127 without its register write). -/
def rawFn (c : Cfg) (p : Phase) (gm : Int) (a : Phase) : Pt2 :=
  rot2d c (fnFlip c p (fnArc c (growScale c p gm))) a

/-- `SHAPE.FN`: `ROT[0]` is advanced before it is used (R127). The pair is the state's first component's result. -/
def shapeFn (s : State) : State × Pt2 :=
  let t := advanceRot 0 s.mod2.toInt s
  (t, rawFn s.cfg s.ph s.mod1.toInt t.rot[0])

/-- `GROW.SCALE(p, gm) -> gp` (R122). -/
def execGrowScale (p : Phase) (gm : Int) (s : State) : Host.Outcome State Fault Refusal :=
  .next (answer (.phase (growScale s.cfg p gm)) s)

/-- `FN.ARC(gp) -> (x0, y0)` (R124). -/
def execFnArc (gp : Phase) (s : State) : Host.Outcome State Fault Refusal :=
  .next (answer (.pair (fnArc s.cfg gp)) s)

/-- `FN.FLIP(p, x0, y0) -> (x1, y1)` (R125). -/
def execFnFlip (p : Phase) (x0 y0 : Int) (s : State) : Host.Outcome State Fault Refusal :=
  .next (answer (.pair (fnFlip s.cfg p ⟨x0, y0⟩)) s)

/-- `ROT2D(x1, y1, a) -> (x, y)` (R126). -/
def execRot2d (x1 y1 : Int) (a : Phase) (s : State) : Host.Outcome State Fault Refusal :=
  .next (answer (.pair (rot2d s.cfg ⟨x1, y1⟩ a)) s)

/-- `SHAPE.FN(p, gm, rm) -> (x, y)` with `p = PH`, `gm = MOD1`, `rm = MOD2` (R121, R127). -/
def execShapeFn (s : State) : Host.Outcome State Fault Refusal :=
  let r := shapeFn s
  .next (answer (.pair r.2) r.1)

end Sys2Proof.Machine
end

