-- ==== Sys2Proof/Machine/ShapeMesh.lean ====
section
/-! DEFINITION. The mesh-projected generator: `PATH.INTERP`, `ROT3D.Y`, `ISO.PROJ`, `MESH.SCALE`, `SHAPE.MESH`
(`43_shape_mesh.md` R141 to R145). One algorithm for the three instances (R140). -/

namespace Sys2Proof.Machine

/-- `PATH.INTERP(j, gp)`; none only on a path of no points, which no configuration has (R8, R141). -/
def pathInterp (c : Cfg) (j : Fin 3) (gp : Phase) : Option Pt3 :=
  let len := pathLen c j
  let seg := segIndex len gp
  let w : Int := (segWeight len gp : Int)
  match readPath c j seg, readPath c j ((seg + 1) % len) with
  | some a, some b => some {
      x := interpolate a.x.toInt b.x.toInt w 32
      y := interpolate a.y.toInt b.y.toInt w 32
      z := interpolate a.z.toInt b.z.toInt w 32 }
  | _, _ => none

/-- `ROT3D.Y(px, py, pz, a)` (R143, decision D14). -/
def rot3dY (c : Cfg) (q : Pt3) (a : Phase) : Pt3 :=
  let co := lutCos c a
  let si := lutSin c a
  { x := asr (q.x * co + q.z * si) c.sinShift
    y := q.y
    z := asr (q.z * co - q.x * si) c.sinShift }

/-- `ISO.PROJ(xr, yr, zr)` (R144). -/
def isoProj (c : Cfg) (q : Pt3) : Pt2 :=
  { x := q.x
    y := q.y + asr (c.isoK.toInt * q.z) c.isoShift }

/-- `MESH.SCALE(h, v)` (R145). -/
def meshScale (c : Cfg) (q : Pt2) : Pt2 :=
  { x := asr (q.x * c.meshGain.toInt) c.meshShift
    y := asr (q.y * c.meshGain.toInt) c.meshShift }

/-- The raw pair of mesh instance `j` at rotation phase `a` (R142 without its register write). -/
def rawMesh (c : Cfg) (j : Fin 3) (p : Phase) (gm : Int) (a : Phase) : Option Pt2 :=
  match pathInterp c j (growScale c p gm) with
  | some q => some (meshScale c (isoProj c (rot3dY c q a)))
  | none => none

/-- The rotation register of mesh instance `j`, `ROT[1 + j]` (R22, R142). -/
def meshRot (j : Fin 3) : Fin 4 :=
  ⟨1 + j.val, by omega⟩

/-- `SHAPE.MESH` of instance `j`: `ROT[1 + j]` is advanced before it is used (R142). -/
def shapeMesh (j : Fin 3) (s : State) : Option (State × Pt2) :=
  let t := advanceRot (meshRot j) s.mod2.toInt s
  match rawMesh s.cfg j s.ph s.mod1.toInt t.rot[meshRot j] with
  | some q => some (t, q)
  | none => none

/-- `PATH.INTERP(j, gp) -> (px, py, pz)` (R141). -/
def execPathInterp (j : Fin 3) (gp : Phase) (s : State) : Host.Outcome State Fault Refusal :=
  match pathInterp s.cfg j gp with
  | some q => .next (answer (.triple q) s)
  | none => .fault .emptyPath

/-- `ROT3D.Y(px, py, pz, a) -> (xr, yr, zr)` (R143). -/
def execRot3dY (px py pz : Int) (a : Phase) (s : State) : Host.Outcome State Fault Refusal :=
  .next (answer (.triple (rot3dY s.cfg ⟨px, py, pz⟩ a)) s)

/-- `ISO.PROJ(xr, yr, zr) -> (h, v)` (R144). -/
def execIsoProj (xr yr zr : Int) (s : State) : Host.Outcome State Fault Refusal :=
  .next (answer (.pair (isoProj s.cfg ⟨xr, yr, zr⟩)) s)

/-- `MESH.SCALE(h, v) -> (x, y)` (R145). -/
def execMeshScale (h v : Int) (s : State) : Host.Outcome State Fault Refusal :=
  .next (answer (.pair (meshScale s.cfg ⟨h, v⟩)) s)

/-- `SHAPE.MESH(j, p, gm, rm) -> (x, y)` with `p = PH`, `gm = MOD1`, `rm = MOD2` (R121, R142). -/
def execShapeMesh (j : Fin 3) (s : State) : Host.Outcome State Fault Refusal :=
  match shapeMesh j s with
  | some r => .next (answer (.pair r.2) r.1)
  | none => .fault .emptyPath

end Sys2Proof.Machine
end

