-- ==== Sys2Proof/Machine/ShapeWt.lean ====
section
/-! DEFINITION. The wavetable-morph generator: `WT.FETCH`, `MORPH.MIX`, `WT.SCALE`, `SHAPE.WT`
(`44_shape_wavetable.md` R150 to R153). It owns no register (R38). -/

namespace Sys2Proof.Machine

/-- `WT.FETCH(j, gp)` (R151). -/
def wtFetch (c : Cfg) (j : Fin 3) (gp : Phase) : WtSamples :=
  { ah := lutRead c (.wt j .a .h) gp
    av := lutRead c (.wt j .a .v) gp
    bh := lutRead c (.wt j .b .h) gp
    bv := lutRead c (.wt j .b .v) gp }

/-- `MORPH.MIX(a, b, m) = a + asr((b - a) * m, 12)` (R152). -/
def morphMix (a b m : Int) : Int :=
  interpolate a b m 12

/-- `WT.SCALE(mx, my)`: the vertical channel is negated after the floor (R153, decision D15). -/
def wtScale (c : Cfg) (q : Pt2) : Pt2 :=
  { x := asr (q.x * c.wtGainX.toInt) c.wtShift
    y := -asr (q.y * c.wtGainY.toInt) c.wtShift }

/-- The raw pair of wavetable instance `j` (R150). -/
def rawWt (c : Cfg) (j : Fin 3) (p : Phase) (gm mm : Int) : Pt2 :=
  let w := wtFetch c j (growScale c p gm)
  let m := morphValue mm
  wtScale c ⟨morphMix w.ah w.bh m, morphMix w.av w.bv m⟩

/-- `WT.FETCH(j, gp) -> (ah, av, bh, bv)` (R151). -/
def execWtFetch (j : Fin 3) (gp : Phase) (s : State) : Host.Outcome State Fault Refusal :=
  .next (answer (.samples (wtFetch s.cfg j gp)) s)

/-- `MORPH.MIX(a, b, m) -> r` (R152). -/
def execMorphMix (a b m : Int) (s : State) : Host.Outcome State Fault Refusal :=
  .next (answer (.sample (morphMix a b m)) s)

/-- `WT.SCALE(mx, my) -> (x, y)` (R153). -/
def execWtScale (mx my : Int) (s : State) : Host.Outcome State Fault Refusal :=
  .next (answer (.pair (wtScale s.cfg ⟨mx, my⟩)) s)

/-- `SHAPE.WT(j, p, gm, mm) -> (x, y)` with `p = PH`, `gm = MOD1`, `mm = MOD2` (R121, R150). -/
def execShapeWt (j : Fin 3) (s : State) : Host.Outcome State Fault Refusal :=
  .next (answer (.pair (rawWt s.cfg j s.ph s.mod1.toInt s.mod2.toInt)) s)

end Sys2Proof.Machine
end

