-- ==== Sys2Proof/Machine/Validity.lean ====
section
/-! DEFINITION. The well-formed configuration (`48_tick.md` R195): the constraints of `00_scope.md` R8, legal descriptors
(`30_encoding.md` R82), and `FitsS32`. A model refuses any other configuration (`60_exceptions.md` R203 (b)). -/

namespace Sys2Proof.Machine

/-- Non-decreasing (R103). -/
def nonDecreasing : List (BitVec 32) → Bool
  | a :: b :: l => decide (a.toNat ≤ b.toNat) && nonDecreasing (b :: l)
  | _ => true

/-- `1 <= n <= hi`. -/
def countIn (n hi : Nat) : Bool :=
  decide (1 ≤ n) && decide (n ≤ hi)

/-- A descriptor that selects an operation (R82). -/
def legalDesc (d : DescBits) : Bool :=
  match decodeDesc d with
  | .ok _ => true
  | .error _ => false

/-- The constraints of R8 and R82 that relate fields or are not in a type. -/
def structureOk (c : Cfg) : Bool :=
  nonDecreasing c.inc.toList
    && countIn (pathLen c 0) 65535 && countIn (pathLen c 1) 65535 && countIn (pathLen c 2) 65535
    && (c.fnFlipX || c.fnFlipY)
    && decide (0 < c.lpfCoef) && decide (c.lpfCoef ≤ 2 ^ c.lpfShift.val)
    && countIn (bankCount c) 16 && c.gdesc.all (fun l => countIn l.length 16 && l.all legalDesc)
    && (readDesc c 0 0 == some 0x00#8)

/-- R195's sufficient condition for `FitsS32`, which a model may check in its place. -/
def sufficientRange (c : Cfg) : Bool :=
  c.sin.toList.all (fun v => decide (v.toInt.natAbs ≤ 2 ^ c.sinShift.val))
    && decide (c.isoK.toInt.natAbs ≤ 2 ^ c.isoShift.val)
    && decide (c.meshGain.toInt.natAbs ≤ 2 ^ (c.meshShift.val + 12))

/-- Both samples fit a signed 32-bit word (R195). -/
def pairFits (q : Pt2) : Bool :=
  fitsS32 q.x && fitsS32 q.y

/-- A raw pair that exists and fits. -/
def meshFits (o : Option Pt2) : Bool :=
  match o with
  | some q => pairFits q
  | none => false

/-- `f` holds of every number below `n`. -/
def allBelow : Nat → (Nat → Bool) → Bool
  | 0, _ => true
  | n + 1, f => f n && allBelow n f

/-- Every generator's raw output at one master phase, growth value and rotation phase fits (R195). -/
def fitsRotating (c : Cfg) (p g a : Nat) : Bool :=
  let ph := BitVec.ofNat 32 p
  let an := BitVec.ofNat 32 a
  pairFits (rawFn c ph g an)
    && meshFits (rawMesh c 0 ph g an) && meshFits (rawMesh c 1 ph g an) && meshFits (rawMesh c 2 ph g an)

/-- Every wavetable instance's raw output at one master phase, growth value and morph value fits (R195). -/
def fitsWavetable (c : Cfg) (p g m : Nat) : Bool :=
  let ph := BitVec.ofNat 32 p
  pairFits (rawWt c 0 ph g m) && pairFits (rawWt c 1 ph g m) && pairFits (rawWt c 2 ph g m)

/-- `FitsS32(Cfg)`: every phase, every modulation value and every rotation phase (R195). The modulation values are the
clamped ones, 0..4096, which are all that a generator sees (R104, R122, R150). Far too long to evaluate: it decides only
where `sufficientRange` says no, and then by proof. -/
def fitsAll (c : Cfg) : Bool :=
  allBelow 4294967296 fun p => allBelow 4097 fun g =>
    allBelow 4294967296 (fun a => fitsRotating c p g a) && allBelow 4097 (fun m => fitsWavetable c p g m)

/-- The well-formed configuration (R195). -/
def cfgWellFormed (c : Cfg) : Bool :=
  structureOk c && (sufficientRange c || fitsAll c)

end Sys2Proof.Machine
end

