-- ==== Sys2Proof/Machine/Tick.lean ====
section
/-! DEFINITION. The two global operations: `TICK` (`48_tick.md` R190), the slot operations in their fixed order, and
`RESET` (`70_reset_and_hazards.md` R220). -/

namespace Sys2Proof.Machine

/-- Slot M: the router operation the switch position selects (R76, R190); `cv1` is 0. -/
def routeSlot (t : TickWord) (s : State) : Host.Outcome State Fault Refusal :=
  match t.sw with
  | .att => execModRouteAtt t.ctl1 t.ctl2 0#16 t.aud1 t.aud2 s
  | .ofs => execModRouteOfs t.ctl1 t.ctl2 0#16 t.aud1 t.aud2 s
  | .ofs2 => execModRouteOfs2 t.ctl1 t.ctl2 0#16 t.aud1 t.aud2 s

/-- One selector operation, performed where its trigger bit is set (R74, R76). -/
def onTrigger (bit : Bool) (op : State → Host.Outcome State Fault Refusal) (s : State) :
    Host.Outcome State Fault Refusal :=
  if bit then op s else .next s

/-- Slot S: every operation whose bit is set, in the order oscillator, bank, slot (R175). -/
def selectorSlot (t : TickWord) (s : State) : Host.Outcome State Fault Refusal :=
  andThen (onTrigger t.trigOsc execSelAdvOsc s) fun s1 =>
    andThen (onTrigger t.trigBank execSelAdvBank s1) fun s2 =>
      onTrigger t.trigSlot execSelAdvSlot s2

/-- Slot G: the generator that `GDESC[BANK][SLOT]` names runs, and its state and raw pair go on to `k` (R76, R190). A
descriptor that names no generator makes the configuration ill-formed (R82, R203 (b)). -/
def withGenerator (s : State) (k : State → Pt2 → Host.Outcome State Fault Refusal) :
    Host.Outcome State Fault Refusal :=
  match readDesc s.cfg s.bank.toNat s.slot.toNat with
  | none => .fault .noSuchDescriptor
  | some d =>
    match decodeDesc d with
    | .error _ => .refused .illFormedConfig
    | .ok .fn => k (shapeFn s).1 (shapeFn s).2
    | .ok (.mesh j) =>
      match shapeMesh j s with
      | some r => k r.1 r.2
      | none => .fault .emptyPath
    | .ok (.wt j) => k s (rawWt s.cfg j s.ph s.mod1.toInt s.mod2.toInt)

/-- The output word of the state after slot F (R78, R190). -/
def outputWord (s : State) : OutBits :=
  encodeOut s.fx s.fy s.bank s.slot

/-- Slots G and F and the output word (R190). -/
def generateAndFilter (s : State) : Host.Outcome State Fault Refusal :=
  withGenerator s fun t q =>
    let u := lpf q t
    .next (answer (.outWord (outputWord u)) u)

/-- The five slots in order: P, M, S, G, F (R76, R190). -/
def tickSlots (t : TickWord) (s : State) : Host.Outcome State Fault Refusal :=
  andThen (execPhaseAdv t.freq t.cv s) fun s1 =>
    andThen (routeSlot t s1) fun s2 =>
      andThen (selectorSlot t s2) generateAndFilter

/-- `TICK(w) -> o` (R190), refused before the first `RESET` (R203 (c), R222) and under a configuration that is not
well-formed (R203 (b)). A word that is not well-formed is refused where it is fetched (Machine/Fetch.lean). -/
def execTick (t : TickWord) (s : State) : Host.Outcome State Fault Refusal :=
  if !s.started then .refused .tickBeforeReset
  else if !cfgWellFormed s.cfg then .refused .illFormedConfig
  else tickSlots t s

/-- Every register at its reset value (R36, R220), the configuration and the host's events untouched. -/
def resetRegisters (s : State) : State :=
  { s with
    ph := 0#32
    rot := #v[0#32, 0#32, 0#32, 0#32]
    fx := 0#32
    fy := 0#32
    mod1 := 0#32
    mod2 := 0#32
    g1 := false
    g2 := false
    ref1 := 0#16
    ref2 := 0#16
    mode := .attenuate
    modeV := false
    bank := 0#4
    slot := 0#4
    started := true
    result := .nothing }

/-- `RESET` (R220), refused under a configuration that is not well-formed, which must be in place first (R203 (b), R223;
log entry 8). -/
def execReset (s : State) : Host.Outcome State Fault Refusal :=
  if !cfgWellFormed s.cfg then .refused .illFormedConfig
  else .next (resetRegisters s)

end Sys2Proof.Machine
end

