-- ==== Sys2Proof/Machine/Dispatch.lean ====
section
/-! DEFINITION. exec: one arm per operation of `30_encoding.md` R77. -/

namespace Sys2Proof.Machine

def exec (i : Instr) (s : State) : Host.Outcome State Fault Refusal :=
  match i with
  | .phaseAdv freq cv => Sys2Proof.Machine.execPhaseAdv freq cv s
  | .rotAdv k rm => Sys2Proof.Machine.execRotAdv k rm s
  | .lutRead t p => Sys2Proof.Machine.execLutRead t p s
  | .lutSin p => Sys2Proof.Machine.execLutSin p s
  | .lutCos p => Sys2Proof.Machine.execLutCos p s
  | .growScale p gm => Sys2Proof.Machine.execGrowScale p gm s
  | .fnArc gp => Sys2Proof.Machine.execFnArc gp s
  | .fnFlip p x0 y0 => Sys2Proof.Machine.execFnFlip p x0 y0 s
  | .rot2d x1 y1 a => Sys2Proof.Machine.execRot2d x1 y1 a s
  | .shapeFn => Sys2Proof.Machine.execShapeFn s
  | .pathInterp j gp => Sys2Proof.Machine.execPathInterp j gp s
  | .rot3dY px py pz a => Sys2Proof.Machine.execRot3dY px py pz a s
  | .isoProj xr yr zr => Sys2Proof.Machine.execIsoProj xr yr zr s
  | .meshScale h v => Sys2Proof.Machine.execMeshScale h v s
  | .shapeMesh j => Sys2Proof.Machine.execShapeMesh j s
  | .wtFetch j gp => Sys2Proof.Machine.execWtFetch j gp s
  | .morphMix a b m => Sys2Proof.Machine.execMorphMix a b m s
  | .wtScale mx my => Sys2Proof.Machine.execWtScale mx my s
  | .shapeWt j => Sys2Proof.Machine.execShapeWt j s
  | .modRouteAtt ctl1 ctl2 cv1 aud1 aud2 => Sys2Proof.Machine.execModRouteAtt ctl1 ctl2 cv1 aud1 aud2 s
  | .modRouteOfs ctl1 ctl2 cv1 aud1 aud2 => Sys2Proof.Machine.execModRouteOfs ctl1 ctl2 cv1 aud1 aud2 s
  | .modRouteOfs2 ctl1 ctl2 cv1 aud1 aud2 => Sys2Proof.Machine.execModRouteOfs2 ctl1 ctl2 cv1 aud1 aud2 s
  | .guardFreeze ctl1 ctl2 => Sys2Proof.Machine.execGuardFreeze ctl1 ctl2 s
  | .guardRelease ctl1 ctl2 => Sys2Proof.Machine.execGuardRelease ctl1 ctl2 s
  | .selAdvOsc => Sys2Proof.Machine.execSelAdvOsc s
  | .selAdvBank => Sys2Proof.Machine.execSelAdvBank s
  | .selAdvSlot => Sys2Proof.Machine.execSelAdvSlot s
  | .lpfStep rx ry => Sys2Proof.Machine.execLpfStep rx ry s
  | .tick t => Sys2Proof.Machine.execTick t s
  | .reset => Sys2Proof.Machine.execReset s

end Sys2Proof.Machine
end

