-- ==== Sys2Proof/Machine/Fetch.lean ====
section
/-! DEFINITION. The host interface (`48_tick.md` R194): taking the next event the host presents, decoding it, and placing
a word where the next step takes it. The block itself fetches nothing (`10_state.md` R28; log entry 2). -/

namespace Sys2Proof.Machine

/-- The next event the host presents, and the state without it; none when the host presents nothing (R196, R215). -/
def takeEvent (s : State) : Option (HostEvent × State) :=
  match s.pending with
  | [] => none
  | e :: rest => some (e, setPending rest s)

/-- The operation an event is, or the refusal of a tick word that is not well-formed (R75, R190, R203 (a)). The other
decode errors are a descriptor's, which no tick word raises. -/
def decodeEvent (e : HostEvent) : Except Refusal Instr :=
  match e with
  | .reset => .ok .reset
  | .tick w =>
    match decodeTick w with
    | .ok t => .ok (.tick t)
    | .error .reservedTickBits => .error .reservedTickBits
    | .error .reservedSwitch => .error .reservedSwitch
    | .error .reservedDescBits => .error .illFormedConfig
    | .error .reservedKind => .error .illFormedConfig
    | .error .reservedInst => .error .illFormedConfig

/-- The first place of the descriptor table, at or after bank `b`, that holds the descriptor `d`. -/
def findDesc (d : DescBits) : Nat → List (List DescBits) → Option (Nat × Nat)
  | _, [] => none
  | b, l :: rest =>
    match l.findIdx? (· == d) with
    | some k => some (b, k)
    | none => findDesc d (b + 1) rest

/-- The host about to present an event, before any other. -/
def present (e : HostEvent) (s : State) : State :=
  setPending (e :: s.pending) s

/-- The host about to present a tick word. -/
def presentTick (w : TickBits) (s : State) : State :=
  present (.tick w) s

/-- The descriptor `d` selected, so that the next tick's slot G decodes it: where the layout holds `d`, its bank and
slot; else a layout that holds it beside the function-defined generator's bank (log entry 11). -/
def selectDesc (d : DescBits) (s : State) : State :=
  match findDesc d 0 s.cfg.gdesc with
  | some (b, k) => setSelector (BitVec.ofNat 4 b) (BitVec.ofNat 4 k) s
  | none => setSelector 1#4 0#4 { s with cfg := { s.cfg with gdesc := [[0x00#8], [d]] } }

/-- `s` with the word `w` of `nbits` bits where the next step takes it: up to 8 bits a descriptor under a tick word of
zeros, else a tick word (log entry 11). -/
def placeWord (nbits w : Nat) (s : State) : State :=
  if nbits ≤ 8 then presentTick 0#128 (selectDesc (BitVec.ofNat 8 w) s)
  else presentTick (BitVec.ofNat 128 w) s

end Sys2Proof.Machine
end

