-- ==== Sys2Proof/Machine/Step.lean ====
section
/-! DEFINITION. One step of the one agent (`48_tick.md` R191): the next event the host presents is taken, decoded and
executed. With no event nothing happens and all state is kept (`60_exceptions.md` R215). -/

namespace Sys2Proof.Machine

/-- One step (R37, R191): a tick is one step. -/
def step (s : State) : Host.Outcome State Fault Refusal :=
  match takeEvent s with
  | none => .next s
  | some (e, t) =>
    match decodeEvent e with
    | .ok i => exec i t
    | .error r => .refused r

/-- `s` with the word `w` of `nbits` bits as what the very next step runs (log entry 11). -/
def State.withFetchWord (s : State) (nbits w : Nat) : State :=
  placeWord nbits w s

end Sys2Proof.Machine
end

