-- ==== Sys2Proof/Machine/Run.lean ====
section
/-! DEFINITION. A run and its observation (`48_tick.md` R196): the host presents events one after the other, each when the one
before has returned (R193, R194), and what is observed is every output word in order and the state at the end. -/

namespace Sys2Proof.Machine

/-- What is observed of a run: the output words of its ticks, the first first, and the state after the last (R196). -/
structure Observation where
  outputs : List OutBits
  final : State
deriving DecidableEq, Repr

/-- The output word an operation emitted: one for a tick (R78, R190), none for `RESET` (R220). -/
def emitted (r : OpResult) : List OutBits :=
  match r with
  | .outWord o => [o]
  | .nothing => []
  | .phase _ => []
  | .sample _ => []
  | .pair _ => []
  | .triple _ => []
  | .samples _ => []

/-- The words emitted so far before those of the run that follows; a stop of that run is a stop of both, with no
observation (R203). -/
def emitBefore (outputs : List OutBits) (o : Host.Outcome Observation Fault Refusal) :
    Host.Outcome Observation Fault Refusal :=
  match o with
  | .next r => .next { r with outputs := outputs ++ r.outputs }
  | .fault r => .fault r
  | .refused r => .refused r

/-- The observation of a run over a list of events from `s`: one step per event. It ends when the last event has
returned, and the block itself has no end (R196). -/
def observe : List HostEvent → State → Host.Outcome Observation Fault Refusal
  | [], s => .next { outputs := [], final := s }
  | e :: rest, s =>
    match step (present e s) with
    | .next t => emitBefore (emitted t.result) (observe rest t)
    | .fault r => .fault r
    | .refused r => .refused r

/-- The observation of a run over a list of tick words (R196). -/
def observeTicks (ws : List TickBits) (s : State) : Host.Outcome Observation Fault Refusal :=
  observe (ws.map .tick) s

end Sys2Proof.Machine
end

