-- ==== Sys2Proof/Machine/Stream.lean ====
section
/-! DEFINITION. The stream notation (`30_encoding.md` R84, R85) as abstract syntax with its expansion to host events, and
the hexadecimal rendering of words (R87). Nothing the hardware does depends on it (decision D27). -/

namespace Sys2Proof.Machine

/-- The letters of `trig=` (R84). -/
inductive TrigLetter where
  | o
  | b
  | s
deriving DecidableEq, Repr

/-- One `tick` line: a numeric field left out is none, `trig` left out or `-` is the empty list (R84). -/
structure TickLine where
  freq : Option Int
  cv : Option Int
  ctl1 : Option Int
  aud1 : Option Int
  ctl2 : Option Int
  aud2 : Option Int
  sw : Switch
  trig : List TrigLetter
deriving DecidableEq, Repr

/-- A stream of lines (R85): each constructor is a line and the lines after it. -/
inductive Stream where
  | done
  | tick (line : TickLine) (rest : Stream)
  | reset (rest : Stream)
  | repeated (n : Nat) (body rest : Stream)
deriving DecidableEq, Repr

/-- A numeric field: -32768..32767, 0 where it is left out (R84). -/
def lineField (v : Option Int) : Option Half :=
  match v with
  | none => some 0#16
  | some n => if -32768 ≤ n ∧ n ≤ 32767 then some (BitVec.ofInt 16 n) else none

/-- The tick word of a line; none where a number is out of its range (R84). -/
def assemble (l : TickLine) : Option TickWord :=
  match lineField l.freq, lineField l.cv, lineField l.ctl1, lineField l.aud1, lineField l.ctl2, lineField l.aud2 with
  | some freq, some cv, some ctl1, some aud1, some ctl2, some aud2 => some {
      freq := freq
      cv := cv
      ctl1 := ctl1
      aud1 := aud1
      ctl2 := ctl2
      aud2 := aud2
      sw := l.sw
      trigOsc := l.trig.contains .o
      trigBank := l.trig.contains .b
      trigSlot := l.trig.contains .s }
  | _, _, _, _, _, _ => none

/-- `n` copies of a list of events. -/
def copies : Nat → List HostEvent → List HostEvent
  | 0, _ => []
  | n + 1, l => l ++ copies n l

/-- The events a stream stands for, in order; `repeat n` stands for its lines written `n` times (R85). -/
def expand : Stream → Option (List HostEvent)
  | .done => some []
  | .tick l rest =>
    match assemble l, expand rest with
    | some t, some es => some (.tick (encodeTick t) :: es)
    | _, _ => none
  | .reset rest =>
    match expand rest with
    | some es => some (.reset :: es)
    | none => none
  | .repeated n body rest =>
    match expand body, expand rest with
    | some b, some es => some (copies n b ++ es)
    | _, _ => none

/-- The `k` low hexadecimal digits of a number, most significant first (R87). -/
def hexDigits (v : Nat) : Nat → List Nat
  | 0 => []
  | k + 1 => (v / 16 ^ k) % 16 :: hexDigits v k

/-- The character of a hexadecimal digit. -/
def hexChar (d : Nat) : Char :=
  ['0', '1', '2', '3', '4', '5', '6', '7', '8', '9', 'A', 'B', 'C', 'D', 'E', 'F'].getD d '0'

/-- A tick word as text: `0x` and exactly 32 digits (R87). -/
def renderTick (w : TickBits) : List Char :=
  '0' :: 'x' :: (hexDigits w.toNat 32).map hexChar

/-- An output word as text: `0x` and 24 digits (R87). -/
def renderOut (o : OutBits) : List Char :=
  '0' :: 'x' :: (hexDigits o.toNat 24).map hexChar

end Sys2Proof.Machine
end

