-- ==== Sys2Proof/Safety.lean ====
section
/-! DEFINITION. What the statements about Trace CORE speak of: the ranges that every run keeps (`10_state.md` R29, R39),
a run of several operations, and the layout's slot total (`46_selector.md` R176). -/

namespace Sys2Proof.Machine

/-- `0 <= BANK < BANK_COUNT` and `0 <= SLOT < SLOTS[BANK]` (R29). -/
def selectorInRange (s : State) : Bool :=
  match slotCount s.cfg s.bank.toNat with
  | some n => decide (s.slot.toNat < n)
  | none => false

/-- A modulation register holds a value the router can have written: at most 2^30 in magnitude (R39, R163, R164). -/
def modInRange (m : Word32) : Bool :=
  decide (m.toInt.natAbs ≤ 2 ^ 30)

/-- What every operation keeps: a configuration the model accepts (R195), the selector in range (R29), and the modulation
registers in theirs (R39). -/
def inRange (s : State) : Bool :=
  cfgWellFormed s.cfg && selectorInRange s && modInRange s.mod1 && modInRange s.mod2

/-- No channel is frozen before a tick has recorded a mode (R27, R222). -/
def guardsNeedMode (s : State) : Bool :=
  s.modeV || (!s.g1 && !s.g2)

/-- The invariant of a run. -/
def inv (s : State) : Bool :=
  inRange s && guardsNeedMode s

/-- Several operations, one after the other, stopping at the first stop. -/
def runOps : List Instr → State → Host.Outcome State Fault Refusal
  | [], s => .next s
  | i :: rest, s => andThen (exec i s) (runOps rest)

/-- `SLOTS[0] + ... + SLOTS[BANK_COUNT - 1]` (R176). -/
def totalSlots (c : Cfg) : Nat :=
  (c.gdesc.map List.length).sum

/-- The logical mode of a switch position (R73). -/
def switchMode (sw : Switch) : RouterMode :=
  match sw with
  | .att => .attenuate
  | .ofs => .offset
  | .ofs2 => .offset

/-- The operands of one router operation, `cv1` being 0 as in every tick (R168). -/
structure RouteInput where
  ctl1 : Half
  ctl2 : Half
  aud1 : Half
  aud2 : Half
deriving DecidableEq, Repr

/-- The router operation of a mode on the given operands. -/
def routeInstr (m : RouterMode) (x : RouteInput) : Instr :=
  match m with
  | .attenuate => .modRouteAtt x.ctl1 x.ctl2 0#16 x.aud1 x.aud2
  | .offset => .modRouteOfs x.ctl1 x.ctl2 0#16 x.aud1 x.aud2

/-- One channel of one table of a wavetable generator (R151). -/
def channelTable (w : WtTables) (side : WtSide) (channel : WtChannel) : Vector Half 1024 :=
  match side, channel with
  | .a, .h => w.aH
  | .a, .v => w.aV
  | .b, .h => w.bH
  | .b, .v => w.bV

end Sys2Proof.Machine
end

