-- ==== Sys2Proof/Certificates/Slice0/Obligations.lean ====
section
/-! DEFINITION. The statements for the provers. A statement of an operation's result says it as `exec i s = .next t` with
`t` given field by field: what is not named in `{ s with … }` is unchanged, so each is also the operation's frame. The block
has no byte-addressed memory (R50), so a frame has no clause on memory but that the tables, in `cfg`, are unchanged. -/

open Sys2Proof Sys2Proof.Machine

/-! ### The phase engine -/

/-- R101: the increment at the clamped exact sum is added to `PH` modulo 2^32, and the new value is returned. -/
def Obligations.PhaseAdvAddsIndexedIncrement : Prop :=
  ∀ (freq cv : Half) (s : State), ∃ (inc : BitVec 32) (t : State),
    s.cfg.inc.toList[(max 0 (min (freq.toInt + cv.toInt) 4095)).toNat]? = some inc
    ∧ exec (.phaseAdv freq cv) s = .next t
    ∧ t.ph.toNat = (s.ph.toNat + inc.toNat) % 4294967296
    ∧ t = { s with ph := t.ph, result := .phase t.ph }

/-- R102: the clamp law. -/
def Obligations.PhaseAdvClampLaw : Prop :=
  ∀ (freq cv : Half) (s : State),
    exec (.phaseAdv freq cv) s
      = exec (.phaseAdv (BitVec.ofInt 16 (max 0 (min (freq.toInt + cv.toInt) 4095))) 0#16) s

/-- R104: the distance of the saturated rotation value from 2048, times the gain, is added modulo 2^32. -/
def Obligations.RotAdvAddsScaledDistance : Prop :=
  ∀ (i : Fin 4) (rm : Int) (s : State), ∃ t : State,
    exec (.rotAdv i rm) s = .next t
    ∧ (t.rot[i].toNat : Int)
        = ((s.rot[i].toNat : Int) + (max 0 (min rm 4096) - 2048) * (s.cfg.rotGain.toNat : Int)) % 4294967296
    ∧ (∀ k : Fin 4, k ≠ i → t.rot[k] = s.rot[k])
    ∧ t = { s with rot := t.rot, result := .phase t.rot[i] }

/-! ### The interpolated lookup -/

/-- R111, R112: index, weight, exact product, one floor, wrapping neighbour; 9 index bits for `SIN`, 10 for a wavetable. -/
def Obligations.LutReadInterpolatesExactly : Prop :=
  ∀ (p : Phase) (s : State),
    (∃ a b : Half,
      s.cfg.sin.toList[p.toNat / 8388608]? = some a
      ∧ s.cfg.sin.toList[(p.toNat / 8388608 + 1) % 512]? = some b
      ∧ exec (.lutRead .sin p) s = .next { s with
          result := .sample (a.toInt + (b.toInt - a.toInt) * ((p.toNat % 8388608 : Nat) : Int) / 8388608) })
    ∧ ∀ (j : Fin 3) (side : WtSide) (channel : WtChannel), ∃ a b : Half,
      (channelTable s.cfg.wt[j] side channel).toList[p.toNat / 4194304]? = some a
      ∧ (channelTable s.cfg.wt[j] side channel).toList[(p.toNat / 4194304 + 1) % 1024]? = some b
      ∧ exec (.lutRead (.wt j side channel) p) s = .next { s with
          result := .sample (a.toInt + (b.toInt - a.toInt) * ((p.toNat % 4194304 : Nat) : Int) / 4194304) }

/-- R113, R114: the sine is the lookup in `SIN`, the cosine the same lookup a quarter cycle later, wrapping. -/
def Obligations.LutSinCosReadTheSineTable : Prop :=
  ∀ (p : Phase) (s : State), ∃ v c : Int,
    exec (.lutRead .sin p) s = .next { s with result := .sample v }
    ∧ exec (.lutSin p) s = .next { s with result := .sample v }
    ∧ exec (.lutRead .sin (BitVec.ofNat 32 ((p.toNat + 1073741824) % 4294967296))) s
        = .next { s with result := .sample c }
    ∧ exec (.lutCos p) s = .next { s with result := .sample c }

/-- R115, R116: consecutive phases, the wrap from 2^32 - 1 to 0 among them, give samples that differ by at most 1. -/
def Obligations.LutReadIsContinuous : Prop :=
  ∀ (tb : SampleTable) (p : Phase) (s : State), ∃ u v : Int,
    exec (.lutRead tb p) s = .next { s with result := .sample u }
    ∧ exec (.lutRead tb (p + 1#32)) s = .next { s with result := .sample v }
    ∧ u - v ≤ 1 ∧ v - u ≤ 1

/-- R116: a sample of the sine lies between the two entries read, whichever is larger. -/
def Obligations.LutSinStaysBetweenEntries : Prop :=
  ∀ (p : Phase) (s : State), ∃ (a b : Half) (v : Int),
    s.cfg.sin.toList[p.toNat / 8388608]? = some a
    ∧ s.cfg.sin.toList[(p.toNat / 8388608 + 1) % 512]? = some b
    ∧ exec (.lutSin p) s = .next { s with result := .sample v }
    ∧ min a.toInt b.toInt ≤ v ∧ v ≤ max a.toInt b.toInt
    ∧ (p.toNat % 8388608 = 0 → v = a.toInt)

/-! ### The function-defined generator -/

/-- R122: the phase times the saturated growth, over 4096; never above the phase, and the phase itself at the maximum. -/
def Obligations.GrowScaleMultipliesBySaturatedGrowth : Prop :=
  ∀ (p : Phase) (gm : Int) (s : State), ∃ gp : Phase,
    exec (.growScale p gm) s = .next { s with result := .phase gp }
    ∧ (gp.toNat : Int) = (p.toNat : Int) * max (s.cfg.growMin.val : Int) (min gm 4096) / 4096
    ∧ gp.toNat ≤ p.toNat
    ∧ (4096 ≤ gm → gp = p)

/-- R124: the arc of the section, at the angle `OFF + MUL * loc` modulo 2^32, through the two lookups. -/
def Obligations.FnArcTracesTheSectionsArc : Prop :=
  ∀ (gp : Phase) (s : State), ∃ (arc : Arc) (co si : Int),
    s.cfg.fnArc.toList[gp.toNat / 1073741824]? = some arc
    ∧ exec (.lutCos (BitVec.ofInt 32 ((arc.off.toNat : Int) + arc.mul.toInt * ((gp.toNat % 1073741824 : Nat) : Int)))) s
        = .next { s with result := .sample co }
    ∧ exec (.lutSin (BitVec.ofInt 32 ((arc.off.toNat : Int) + arc.mul.toInt * ((gp.toNat % 1073741824 : Nat) : Int)))) s
        = .next { s with result := .sample si }
    ∧ exec (.fnArc gp) s = .next { s with
        result := .pair ⟨arc.cx.toInt + arc.rad.toInt * co / 2 ^ s.cfg.sinShift.val,
                         arc.cy.toInt + arc.rad.toInt * si / 2 ^ s.cfg.sinShift.val⟩ }

/-- R125: the flip, on the top bit of the original phase. -/
def Obligations.FnFlipMirrorsTheSecondHalf : Prop :=
  ∀ (p : Phase) (x0 y0 : Int) (s : State),
    (p.toNat < 2147483648 → exec (.fnFlip p x0 y0) s = .next { s with result := .pair ⟨x0, y0⟩ })
    ∧ (2147483648 ≤ p.toNat → exec (.fnFlip p x0 y0) s = .next { s with
        result := .pair ⟨(if s.cfg.fnFlipX then -1 else 1) * x0, (if s.cfg.fnFlipY then -1 else 1) * y0⟩ })

/-- R126: the counter-clockwise rotation, one floor per sum. -/
def Obligations.Rot2dRotatesCounterClockwise : Prop :=
  ∀ (x1 y1 : Int) (a : Phase) (s : State), ∃ co si : Int,
    exec (.lutCos a) s = .next { s with result := .sample co }
    ∧ exec (.lutSin a) s = .next { s with result := .sample si }
    ∧ exec (.rot2d x1 y1 a) s = .next { s with
        result := .pair ⟨(x1 * co - y1 * si) / 2 ^ s.cfg.sinShift.val, (x1 * si + y1 * co) / 2 ^ s.cfg.sinShift.val⟩ }

/-- R127: `SHAPE.FN` is its five sub-operations in order, `ROT[0]` advanced before it is used. -/
def Obligations.ShapeFnIsItsSubOperations : Prop :=
  ∀ s : State, ∃ (gp : Phase) (q0 q1 q : Pt2) (t : State),
    exec (.growScale s.ph s.mod1.toInt) s = .next { s with result := .phase gp }
    ∧ exec (.fnArc gp) s = .next { s with result := .pair q0 }
    ∧ exec (.fnFlip s.ph q0.x q0.y) s = .next { s with result := .pair q1 }
    ∧ exec (.rotAdv 0 s.mod2.toInt) s = .next t
    ∧ exec (.rot2d q1.x q1.y t.rot[(0 : Fin 4)]) t = .next { t with result := .pair q }
    ∧ exec .shapeFn s = .next { t with result := .pair q }

/-- R128, for a growth minimum of 0: at or below it the function-defined generator's raw output depends on the phase only
through the flip, so it takes at most two values per rotation angle. -/
def Obligations.CollapsedFnShapeHasTwoPoints : Prop :=
  ∀ s1 s2 : State, s2.cfg = s1.cfg → s1.cfg.growMin = 0 → s1.mod1.toInt ≤ 0 → s2.mod1.toInt ≤ 0 →
    s2.mod2 = s1.mod2 → s2.rot[(0 : Fin 4)] = s1.rot[(0 : Fin 4)] →
    (s2.ph.toNat < 2147483648 ↔ s1.ph.toNat < 2147483648) →
    ∃ t1 t2 : State, exec .shapeFn s1 = .next t1 ∧ exec .shapeFn s2 = .next t2 ∧ t2.result = t1.result

/-! ### The mesh-projected generator -/

/-- R141: segment and weight by a multiply with the path's length, each coordinate interpolated with one floor, the last
segment closing on the first point. -/
def Obligations.PathInterpInterpolatesTheSegment : Prop :=
  ∀ (j : Fin 3) (gp : Phase) (s : State), 1 ≤ (s.cfg.path[j]).length → ∃ (a b : PathPoint) (w : Int),
    w = ((gp.toNat * (s.cfg.path[j]).length % 4294967296 : Nat) : Int)
    ∧ (s.cfg.path[j])[gp.toNat * (s.cfg.path[j]).length / 4294967296]? = some a
    ∧ (s.cfg.path[j])[(gp.toNat * (s.cfg.path[j]).length / 4294967296 + 1) % (s.cfg.path[j]).length]? = some b
    ∧ exec (.pathInterp j gp) s = .next { s with
        result := .triple ⟨a.x.toInt + (b.x.toInt - a.x.toInt) * w / 4294967296,
                           a.y.toInt + (b.y.toInt - a.y.toInt) * w / 4294967296,
                           a.z.toInt + (b.z.toInt - a.z.toInt) * w / 4294967296⟩ }

/-- R143: the rotation about the y axis, one floor per sum. -/
def Obligations.Rot3dRotatesAboutY : Prop :=
  ∀ (px py pz : Int) (a : Phase) (s : State), ∃ co si : Int,
    exec (.lutCos a) s = .next { s with result := .sample co }
    ∧ exec (.lutSin a) s = .next { s with result := .sample si }
    ∧ exec (.rot3dY px py pz a) s = .next { s with
        result := .triple ⟨(px * co + pz * si) / 2 ^ s.cfg.sinShift.val, py, (pz * co - px * si) / 2 ^ s.cfg.sinShift.val⟩ }

/-- R144, R145: the isometric projection and the output scale, each product floored once. -/
def Obligations.IsoProjAndMeshScale : Prop :=
  ∀ (x y z h v : Int) (s : State),
    exec (.isoProj x y z) s = .next { s with
        result := .pair ⟨x, y + s.cfg.isoK.toInt * z / 2 ^ s.cfg.isoShift.val⟩ }
    ∧ exec (.meshScale h v) s = .next { s with
        result := .pair ⟨h * s.cfg.meshGain.toInt / 2 ^ s.cfg.meshShift.val, v * s.cfg.meshGain.toInt / 2 ^ s.cfg.meshShift.val⟩ }

/-- R142: `SHAPE.MESH` of instance `j` is its six sub-operations in order, on the register `ROT[1 + j]`. -/
def Obligations.ShapeMeshIsItsSubOperations : Prop :=
  ∀ (j : Fin 3) (k : Fin 4) (s : State), k.val = 1 + j.val → 1 ≤ (s.cfg.path[j]).length →
    ∃ (gp : Phase) (q r : Pt3) (h o : Pt2) (t : State),
      exec (.growScale s.ph s.mod1.toInt) s = .next { s with result := .phase gp }
      ∧ exec (.pathInterp j gp) s = .next { s with result := .triple q }
      ∧ exec (.rotAdv k s.mod2.toInt) s = .next t
      ∧ exec (.rot3dY q.x q.y q.z t.rot[k]) t = .next { t with result := .triple r }
      ∧ exec (.isoProj r.x r.y r.z) t = .next { t with result := .pair h }
      ∧ exec (.meshScale h.x h.y) t = .next { t with result := .pair o }
      ∧ exec (.shapeMesh j) s = .next { t with result := .pair o }

/-- R128, R146: at growth 0 the growth-scaled phase is 0, and there a path gives its point 0. -/
def Obligations.CollapsedMeshPathIsPointZero : Prop :=
  ∀ (j : Fin 3) (p : Phase) (gm : Int) (a : PathPoint) (s : State),
    s.cfg.growMin = 0 → gm ≤ 0 → (s.cfg.path[j])[0]? = some a →
    exec (.growScale p gm) s = .next { s with result := .phase 0#32 }
    ∧ exec (.pathInterp j 0#32) s = .next { s with result := .triple ⟨a.x.toInt, a.y.toInt, a.z.toInt⟩ }

/-! ### The wavetable-morph generator -/

/-- R151: four lookups at the same phase, each in its own table. -/
def Obligations.WtFetchReadsFourTables : Prop :=
  ∀ (j : Fin 3) (gp : Phase) (s : State), ∃ w : WtSamples,
    exec (.lutRead (.wt j .a .h) gp) s = .next { s with result := .sample w.ah }
    ∧ exec (.lutRead (.wt j .a .v) gp) s = .next { s with result := .sample w.av }
    ∧ exec (.lutRead (.wt j .b .h) gp) s = .next { s with result := .sample w.bh }
    ∧ exec (.lutRead (.wt j .b .v) gp) s = .next { s with result := .sample w.bv }
    ∧ exec (.wtFetch j gp) s = .next { s with result := .samples w }

/-- R152, for a weight in the operand's range 0..4096: the weighted difference, floored once; the same integer as the
weighted sum; between its operands; exactly an operand at the ends, the floored mean in the middle. -/
def Obligations.MorphMixBlends : Prop :=
  ∀ (a b m : Int) (s : State), 0 ≤ m → m ≤ 4096 → ∃ r : Int,
    exec (.morphMix a b m) s = .next { s with result := .sample r }
    ∧ r = a + (b - a) * m / 4096
    ∧ r = (a * (4096 - m) + b * m) / 4096
    ∧ min a b ≤ r ∧ r ≤ max a b
    ∧ (m = 0 → r = a) ∧ (m = 4096 → r = b) ∧ (m = 2048 → r = (a + b) / 2)

/-- R153: the two gains, and the vertical channel negated after the floor. -/
def Obligations.WtScaleInvertsVertical : Prop :=
  ∀ (mx my : Int) (s : State),
    exec (.wtScale mx my) s = .next { s with
      result := .pair ⟨mx * s.cfg.wtGainX.toInt / 2 ^ s.cfg.wtShift.val, -(my * s.cfg.wtGainY.toInt / 2 ^ s.cfg.wtShift.val)⟩ }

/-- R150: `SHAPE.WT` is its sub-operations in order, the morph value saturated to 0..4096, and it writes no register. -/
def Obligations.ShapeWtIsItsSubOperations : Prop :=
  ∀ (j : Fin 3) (s : State), ∃ (gp : Phase) (w : WtSamples) (mx my : Int) (o : Pt2),
    exec (.growScale s.ph s.mod1.toInt) s = .next { s with result := .phase gp }
    ∧ exec (.wtFetch j gp) s = .next { s with result := .samples w }
    ∧ exec (.morphMix w.ah w.bh (max 0 (min s.mod2.toInt 4096))) s = .next { s with result := .sample mx }
    ∧ exec (.morphMix w.av w.bv (max 0 (min s.mod2.toInt 4096))) s = .next { s with result := .sample my }
    ∧ exec (.wtScale mx my) s = .next { s with result := .pair o }
    ∧ exec (.shapeWt j) s = .next { s with result := .pair o }

/-- R154: the morph law. At or below weight 0 only table A's samples, at or above 4096 only table B's, at 2048 the mean
rounded toward minus infinity. -/
def Obligations.MorphLaw : Prop :=
  ∀ (j : Fin 3) (s : State), ∃ (gp : Phase) (w : WtSamples),
    exec (.growScale s.ph s.mod1.toInt) s = .next { s with result := .phase gp }
    ∧ exec (.wtFetch j gp) s = .next { s with result := .samples w }
    ∧ (s.mod2.toInt ≤ 0 → exec (.shapeWt j) s = exec (.wtScale w.ah w.av) s)
    ∧ (4096 ≤ s.mod2.toInt → exec (.shapeWt j) s = exec (.wtScale w.bh w.bv) s)
    ∧ (s.mod2.toInt = 2048 → exec (.shapeWt j) s = exec (.wtScale ((w.ah + w.bh) / 2) ((w.av + w.bv) / 2)) s)

/-! ### The modulation router and its guard -/

/-- R165: both channels freeze, with the controls as references. -/
def Obligations.GuardFreezeFreezesBoth : Prop :=
  ∀ (ctl1 ctl2 : Half) (s : State),
    exec (.guardFreeze ctl1 ctl2) s
      = .next { s with g1 := true, ref1 := ctl1, g2 := true, ref2 := ctl2, result := .nothing }

/-- R166: a channel stays frozen exactly while its control is within the deadband of its reference. -/
def Obligations.GuardReleaseNeedsTheDeadband : Prop :=
  ∀ (ctl1 ctl2 : Half) (s : State), ∃ t : State,
    exec (.guardRelease ctl1 ctl2) s = .next t
    ∧ (t.g1 = true ↔ s.g1 = true ∧ |ctl1.toInt - s.ref1.toInt| ≤ (s.cfg.deadband : Int))
    ∧ (t.g2 = true ↔ s.g2 = true ∧ |ctl2.toInt - s.ref2.toInt| ≤ (s.cfg.deadband : Int))
    ∧ t = { s with g1 := t.g1, g2 := t.g2, result := .nothing }

/-- R162, R163: `MOD.ROUTE.ATT`: freeze on a change from offset, record the mode, release, and route each free channel
through `asr(aud * ctl, ATT_SHIFT)`, which no write cuts; `cv1` has no effect. -/
def Obligations.RouteAttFollowsTheProcedure : Prop :=
  ∀ (ctl1 ctl2 cv1 aud1 aud2 : Half) (s : State), ∃ (f t : State),
    (if s.modeV = true ∧ s.mode = .offset then exec (.guardFreeze ctl1 ctl2) s = .next f
      else f = { s with result := .nothing })
    ∧ exec (.modRouteAtt ctl1 ctl2 cv1 aud1 aud2) s = .next t
    ∧ exec (.guardRelease ctl1 ctl2) { f with mode := .attenuate, modeV := true }
        = .next { t with mod1 := s.mod1, mod2 := s.mod2, result := .nothing }
    ∧ (t.g1 = true → t.mod1 = s.mod1)
    ∧ (t.g1 = false → t.mod1.toInt = aud1.toInt * ctl1.toInt / 2 ^ s.cfg.attShift.val)
    ∧ (t.g2 = true → t.mod2 = s.mod2)
    ∧ (t.g2 = false → t.mod2.toInt = aud2.toInt * ctl2.toInt / 2 ^ s.cfg.attShift.val)
    ∧ t.result = .pair ⟨t.mod1.toInt, t.mod2.toInt⟩

/-- R162, R164: `MOD.ROUTE.OFS`, for both switch codes that select it: freeze on a change from attenuate, record the mode,
release, and route each free channel through `ctl + aud`, neither clamped nor cut; `cv1` has no effect. -/
def Obligations.RouteOfsFollowsTheProcedure : Prop :=
  ∀ (ctl1 ctl2 cv1 aud1 aud2 : Half) (s : State), ∃ (f t : State),
    (if s.modeV = true ∧ s.mode = .attenuate then exec (.guardFreeze ctl1 ctl2) s = .next f
      else f = { s with result := .nothing })
    ∧ exec (.modRouteOfs ctl1 ctl2 cv1 aud1 aud2) s = .next t
    ∧ exec (.modRouteOfs2 ctl1 ctl2 cv1 aud1 aud2) s = .next t
    ∧ exec (.guardRelease ctl1 ctl2) { f with mode := .offset, modeV := true }
        = .next { t with mod1 := s.mod1, mod2 := s.mod2, result := .nothing }
    ∧ (t.g1 = true → t.mod1 = s.mod1)
    ∧ (t.g1 = false → t.mod1.toInt = ctl1.toInt + aud1.toInt)
    ∧ (t.g2 = true → t.mod2 = s.mod2)
    ∧ (t.g2 = false → t.mod2.toInt = ctl2.toInt + aud2.toInt)
    ∧ t.result = .pair ⟨t.mod1.toInt, t.mod2.toInt⟩

/-- R168: the operand `cv1` has no effect. -/
def Obligations.RouterIgnoresCv1 : Prop :=
  ∀ (ctl1 ctl2 cv1 cv1' aud1 aud2 : Half) (s : State),
    exec (.modRouteAtt ctl1 ctl2 cv1 aud1 aud2) s = exec (.modRouteAtt ctl1 ctl2 cv1' aud1 aud2) s
    ∧ exec (.modRouteOfs ctl1 ctl2 cv1 aud1 aud2) s = exec (.modRouteOfs ctl1 ctl2 cv1' aud1 aud2) s
    ∧ exec (.modRouteOfs2 ctl1 ctl2 cv1 aud1 aud2) s = exec (.modRouteOfs2 ctl1 ctl2 cv1' aud1 aud2) s

/-- R167 for channel 1: after a mode change the routed value is held while the control stays within the deadband of where
it was, whatever the audio does; from the first tick in which it has moved past, the value is the new mode's formula. -/
def Obligations.GuardLawOfChannelOne : Prop :=
  ∀ (m : RouterMode) (s : State) (x y z : RouteInput) (xs ys : List RouteInput),
    s.modeV = true → s.mode ≠ m →
    (∀ v ∈ xs, |v.ctl1.toInt - x.ctl1.toInt| ≤ (s.cfg.deadband : Int)) →
    (s.cfg.deadband : Int) < |y.ctl1.toInt - x.ctl1.toInt| →
    (y :: ys).getLast? = some z →
    ∃ t u : State,
      runOps ((x :: xs).map (routeInstr m)) s = .next t ∧ t.mod1 = s.mod1
      ∧ runOps ((y :: ys).map (routeInstr m)) t = .next u
      ∧ u.mod1.toInt = (match m with
        | .attenuate => z.aud1.toInt * z.ctl1.toInt / 2 ^ s.cfg.attShift.val
        | .offset => z.ctl1.toInt + z.aud1.toInt)

/-- R167 for channel 2. -/
def Obligations.GuardLawOfChannelTwo : Prop :=
  ∀ (m : RouterMode) (s : State) (x y z : RouteInput) (xs ys : List RouteInput),
    s.modeV = true → s.mode ≠ m →
    (∀ v ∈ xs, |v.ctl2.toInt - x.ctl2.toInt| ≤ (s.cfg.deadband : Int)) →
    (s.cfg.deadband : Int) < |y.ctl2.toInt - x.ctl2.toInt| →
    (y :: ys).getLast? = some z →
    ∃ t u : State,
      runOps ((x :: xs).map (routeInstr m)) s = .next t ∧ t.mod2 = s.mod2
      ∧ runOps ((y :: ys).map (routeInstr m)) t = .next u
      ∧ u.mod2.toInt = (match m with
        | .attenuate => z.aud2.toInt * z.ctl2.toInt / 2 ^ s.cfg.attShift.val
        | .offset => z.ctl2.toInt + z.aud2.toInt)

/-! ### The selector -/

/-- R172: the slot advances; from the last slot of a bank the next bank's first slot, wrapping. -/
def Obligations.SelAdvOscStepsThroughTheLayout : Prop :=
  ∀ (s : State) (n : Nat), cfgWellFormed s.cfg = true →
    (s.cfg.gdesc[s.bank.toNat]?).map List.length = some n → s.slot.toNat < n → ∃ t : State,
      exec .selAdvOsc s = .next t
      ∧ (s.slot.toNat + 1 = n → t.slot = 0#4 ∧ t.bank.toNat = (s.bank.toNat + 1) % s.cfg.gdesc.length)
      ∧ (s.slot.toNat + 1 ≠ n → t.slot.toNat = s.slot.toNat + 1 ∧ t.bank = s.bank)
      ∧ t = { s with bank := t.bank, slot := t.slot, result := .nothing }

/-- R173: the next bank, wrapping, at its first slot. -/
def Obligations.SelAdvBankTakesTheNextBank : Prop :=
  ∀ s : State, cfgWellFormed s.cfg = true → ∃ t : State,
    exec .selAdvBank s = .next t
    ∧ t.bank.toNat = (s.bank.toNat + 1) % s.cfg.gdesc.length
    ∧ t = { s with bank := t.bank, slot := 0#4, result := .nothing }

/-- R174: the next slot of the same bank, wrapping. -/
def Obligations.SelAdvSlotStaysInTheBank : Prop :=
  ∀ (s : State) (n : Nat), cfgWellFormed s.cfg = true →
    (s.cfg.gdesc[s.bank.toNat]?).map List.length = some n → ∃ t : State,
      exec .selAdvSlot s = .next t
      ∧ t.slot.toNat = (s.slot.toNat + 1) % n
      ∧ t = { s with slot := t.slot, result := .nothing }

/-- R176: `SEL.ADVOSC` applied as many times as the layout has slots returns to the same state. -/
def Obligations.SelectorCycleLaw : Prop :=
  ∀ s : State, cfgWellFormed s.cfg = true → selectorInRange s = true →
    runOps (List.replicate (totalSlots s.cfg) .selAdvOsc) s = .next { s with result := .nothing }

/-- R176: `SEL.ADVBANK` applied `BANK_COUNT` times from a first slot, and `SEL.ADVSLOT` applied `SLOTS[BANK]` times, return
to the same state. -/
def Obligations.BankAndSlotCycles : Prop :=
  ∀ (s : State) (n : Nat), cfgWellFormed s.cfg = true →
    (s.cfg.gdesc[s.bank.toNat]?).map List.length = some n → s.slot.toNat < n →
    (s.slot = 0#4 → runOps (List.replicate s.cfg.gdesc.length .selAdvBank) s = .next { s with result := .nothing })
    ∧ runOps (List.replicate n .selAdvSlot) s = .next { s with result := .nothing }

/-! ### The output conditioner -/

/-- R181, for raw samples in the operands' range, the signed 32-bit words: each filter register moves by the floored scaled
difference, cut to 32 bits, and is returned. -/
def Obligations.LpfStepFollowsTheRecurrence : Prop :=
  ∀ (rx ry : Int) (s : State), fitsS32 rx = true → fitsS32 ry = true → ∃ t : State,
    exec (.lpfStep rx ry) s = .next t
    ∧ t.fx = BitVec.ofInt 32 (s.fx.toInt + (rx - s.fx.toInt) * (s.cfg.lpfCoef : Int) / 2 ^ s.cfg.lpfShift.val)
    ∧ t.fy = BitVec.ofInt 32 (s.fy.toInt + (ry - s.fy.toInt) * (s.cfg.lpfCoef : Int) / 2 ^ s.cfg.lpfShift.val)
    ∧ t = { s with fx := t.fx, fy := t.fy, result := .pair ⟨t.fx.toInt, t.fy.toInt⟩ }

/-- R183: with a coefficient in range and raw samples that fit 32 bits, each new value lies between the old one and the
raw sample, and the cut to 32 bits changes nothing. -/
def Obligations.LpfNeverOvershoots : Prop :=
  ∀ (rx ry : Int) (s : State), 0 < s.cfg.lpfCoef → s.cfg.lpfCoef ≤ 2 ^ s.cfg.lpfShift.val →
    fitsS32 rx = true → fitsS32 ry = true → ∃ t : State,
      exec (.lpfStep rx ry) s = .next t
      ∧ t.fx.toInt = s.fx.toInt + (rx - s.fx.toInt) * (s.cfg.lpfCoef : Int) / 2 ^ s.cfg.lpfShift.val
      ∧ t.fy.toInt = s.fy.toInt + (ry - s.fy.toInt) * (s.cfg.lpfCoef : Int) / 2 ^ s.cfg.lpfShift.val
      ∧ min s.fx.toInt rx ≤ t.fx.toInt ∧ t.fx.toInt ≤ max s.fx.toInt rx
      ∧ min s.fy.toInt ry ≤ t.fy.toInt ∧ t.fy.toInt ≤ max s.fy.toInt ry
      ∧ (rx < s.fx.toInt → t.fx.toInt < s.fx.toInt) ∧ (ry < s.fy.toInt → t.fy.toInt < s.fy.toInt)

/-- R184: under a constant input the filter reaches the input from above, and from below the band
`(r - FX) * LPF_COEF < 2^LPF_SHIFT`, in finitely many steps, on either channel; in the band it stays. -/
def Obligations.LpfConverges : Prop :=
  ∀ (rx ry : Int) (s : State), 0 < s.cfg.lpfCoef → s.cfg.lpfCoef ≤ 2 ^ s.cfg.lpfShift.val →
    fitsS32 rx = true → fitsS32 ry = true →
    (∃ (n : Nat) (t : State), runOps (List.replicate n (.lpfStep rx ry)) s = .next t
      ∧ (rx ≤ s.fx.toInt → t.fx.toInt = rx)
      ∧ (s.fx.toInt ≤ rx → t.fx.toInt ≤ rx ∧ (rx - t.fx.toInt) * (s.cfg.lpfCoef : Int) < 2 ^ s.cfg.lpfShift.val))
    ∧ (∃ (n : Nat) (t : State), runOps (List.replicate n (.lpfStep rx ry)) s = .next t
      ∧ (ry ≤ s.fy.toInt → t.fy.toInt = ry)
      ∧ (s.fy.toInt ≤ ry → t.fy.toInt ≤ ry ∧ (ry - t.fy.toInt) * (s.cfg.lpfCoef : Int) < 2 ^ s.cfg.lpfShift.val))
    ∧ (s.fx.toInt ≤ rx → (rx - s.fx.toInt) * (s.cfg.lpfCoef : Int) < 2 ^ s.cfg.lpfShift.val →
      ∃ t : State, exec (.lpfStep rx ry) s = .next t ∧ t.fx = s.fx)
    ∧ (s.fy.toInt ≤ ry → (ry - s.fy.toInt) * (s.cfg.lpfCoef : Int) < 2 ^ s.cfg.lpfShift.val →
      ∃ t : State, exec (.lpfStep rx ry) s = .next t ∧ t.fy = s.fy)

/-! ### The tick, reset and the step -/

/-- R76, R190: a tick is its slot operations in order, each in the state the one before left: the operations the tick word
selects, the generator that the descriptor at the resulting bank and slot names, the filter on its raw pair; the output
word is made of the filter and selector registers. -/
def Obligations.TickIsItsSlotOperations : Prop :=
  ∀ (w : TickWord) (s : State), s.started = true → cfgWellFormed s.cfg = true → selectorInRange s = true →
    ∃ (d : DescBits) (g : Generator) (q : Pt2) (s4 s5 s6 : State),
      runOps (tickOps w) s = .next s4
      ∧ ((s4.cfg.gdesc[s4.bank.toNat]?).bind fun l => l[s4.slot.toNat]?) = some d
      ∧ decodeDesc d = .ok g
      ∧ exec (generatorOp g) s4 = .next s5 ∧ s5.result = .pair q
      ∧ exec (.lpfStep q.x q.y) s5 = .next s6
      ∧ exec (.tick w) s = .next { s6 with result := .outWord (encodeOut s6.fx s6.fy s6.bank s6.slot) }

/-- R105, R106: every tick advances `PH`, and of the rotation phases only the active generator's own, by the modulation
value routed in the same tick; a wavetable instance moves none. -/
def Obligations.TickAdvancesOnlyTheActiveRotation : Prop :=
  ∀ (w : TickWord) (s : State), s.started = true → cfgWellFormed s.cfg = true → selectorInRange s = true →
    ∃ (inc : BitVec 32) (d : DescBits) (u : State),
      exec (.tick w) s = .next u
      ∧ s.cfg.inc.toList[(max 0 (min (w.freq.toInt + w.cv.toInt) 4095)).toNat]? = some inc
      ∧ u.ph.toNat = (s.ph.toNat + inc.toNat) % 4294967296
      ∧ ((u.cfg.gdesc[u.bank.toNat]?).bind fun l => l[u.slot.toNat]?) = some d
      ∧ ∀ k : Fin 4, (u.rot[k].toNat : Int) =
          (if decodeDesc d = .ok .fn ∧ k = 0 ∨ (∃ j : Fin 3, decodeDesc d = .ok (.mesh j) ∧ k.val = 1 + j.val) then
            ((s.rot[k].toNat : Int) + (max 0 (min u.mod2.toInt 4096) - 2048) * (s.cfg.rotGain.toNat : Int)) % 4294967296
          else (s.rot[k].toNat : Int))

/-- R27, R222: a tick with no mode recorded records its own mode and freezes no channel. -/
def Obligations.FirstTickFreezesNothing : Prop :=
  ∀ (w : TickWord) (s : State), s.started = true → cfgWellFormed s.cfg = true → selectorInRange s = true →
    s.modeV = false → s.g1 = false → s.g2 = false → ∃ u : State,
      exec (.tick w) s = .next u ∧ u.modeV = true ∧ u.mode = switchMode w.sw
      ∧ u.g1 = false ∧ u.g2 = false ∧ u.ref1 = s.ref1 ∧ u.ref2 = s.ref2

/-- R78: the output word returned by a tick carries the filter registers and the selector registers after it, and zeros. -/
def Obligations.OutputWordCarriesFilterAndSelector : Prop :=
  ∀ (w : TickWord) (s : State), s.started = true → cfgWellFormed s.cfg = true → selectorInRange s = true →
    ∃ (o : OutBits) (u : State), exec (.tick w) s = .next u ∧ u.result = .outWord o
      ∧ outX o = u.fx.toInt ∧ outY o = u.fy.toInt ∧ outBank o = u.bank ∧ outSlot o = u.slot
      ∧ o.toNat < 4722366482869645213696

/-- R129, one tick of the scenario: in offset mode with growth at its maximum and rotation at its centre, no guard, bank 0
slot 0: the growth is the identity, the rotation phase does not move, and the sample is the filtered, rotated, flipped arc
point at the new master phase. -/
def Obligations.EndToEndTick : Prop :=
  ∀ s : State, s.started = true → cfgWellFormed s.cfg = true → s.bank = 0#4 → s.slot = 0#4 →
    s.g1 = false → s.g2 = false → (s.modeV = true → s.mode = .offset) →
    ∃ (inc : BitVec 32) (q0 q1 q : Pt2) (t u : State),
      exec (.tick { freq := 2048#16, cv := 0#16, ctl1 := 4096#16, aud1 := 0#16, ctl2 := 2048#16, aud2 := 0#16,
                    sw := .ofs, trigOsc := false, trigBank := false, trigSlot := false }) s = .next u
      ∧ s.cfg.inc.toList[2048]? = some inc ∧ u.ph = s.ph + inc
      ∧ u.mod1.toInt = 4096 ∧ u.mod2.toInt = 2048 ∧ u.rot = s.rot ∧ u.bank = 0#4 ∧ u.slot = 0#4
      ∧ exec (.fnArc u.ph) s = .next { s with result := .pair q0 }
      ∧ exec (.fnFlip u.ph q0.x q0.y) s = .next { s with result := .pair q1 }
      ∧ exec (.rot2d q1.x q1.y s.rot[(0 : Fin 4)]) s = .next { s with result := .pair q }
      ∧ exec (.lpfStep q.x q.y) s = .next t ∧ u.fx = t.fx ∧ u.fy = t.fy

/-- R36, R220: `RESET` gives every register its reset value from any state, and touches neither the configuration nor what
the host will present. -/
def Obligations.ResetClearsEveryRegister : Prop :=
  ∀ s : State, cfgWellFormed s.cfg = true → ∃ t : State,
    exec .reset s = .next t
    ∧ t.ph = 0#32 ∧ (∀ k : Fin 4, t.rot[k] = 0#32) ∧ t.fx = 0#32 ∧ t.fy = 0#32 ∧ t.mod1 = 0#32 ∧ t.mod2 = 0#32
    ∧ t.g1 = false ∧ t.g2 = false ∧ t.ref1 = 0#16 ∧ t.ref2 = 0#16 ∧ t.mode = .attenuate ∧ t.modeV = false
    ∧ t.bank = 0#4 ∧ t.slot = 0#4 ∧ t.started = true ∧ t.result = .nothing ∧ t.cfg = s.cfg ∧ t.pending = s.pending

/-- The state right after reset meets the run's invariant. Its configuration is CFG_T by the model's choice (log entry 1). -/
def Obligations.ResetStateMeetsTheInvariant : Prop :=
  inv State.reset = true ∧ State.reset.started = true

/-- The host's next event is taken and run: a well-formed tick word as `TICK` of its fields, the reset event as `RESET`;
with no event nothing happens. -/
def Obligations.StepRunsTheDecodedEvent : Prop :=
  ∀ (s : State) (rest : List HostEvent),
    (∀ (w : TickBits) (t : TickWord), s.pending = .tick w :: rest → decodeTick w = .ok t →
      step s = exec (.tick t) { s with pending := rest })
    ∧ (s.pending = .reset :: rest → step s = exec .reset { s with pending := rest })
    ∧ (s.pending = [] → step s = .next s)

/-- R191, R203: a step on a tick word goes on exactly where a reset was given, the word is well-formed and the
configuration is well-formed, and is a refusal otherwise; with the selector in range it never faults. -/
def Obligations.TickStepIsTotalOnWellFormedInputs : Prop :=
  ∀ (s : State) (w : TickBits) (rest : List HostEvent), s.pending = .tick w :: rest → selectorInRange s = true →
    ((∃ t : State, step s = .next t) ↔
      s.started = true ∧ tickWellFormed w = true ∧ cfgWellFormed s.cfg = true)
    ∧ ((∃ r : Refusal, step s = .refused r) ↔
      ¬ (s.started = true ∧ tickWellFormed w = true ∧ cfgWellFormed s.cfg = true))

/-- R29, R39: every step keeps the configuration well-formed, the selector in range, the modulation registers within 2^30,
and no guard set before a mode is recorded. -/
def Obligations.StepKeepsTheInvariant : Prop :=
  ∀ s t : State, inv s = true → step s = .next t → inv t = true

/-- R29: after every operation, a sub-operation on its own among them, the selector is in range and the modulation
registers are within 2^30. -/
def Obligations.EveryOperationKeepsTheRanges : Prop :=
  ∀ (i : Instr) (s t : State), inRange s = true → exec i s = .next t → inRange t = true

/-- R20's column "written by", with R50 and R66: an operation that changes a register is one the table names, or a global
one; none changes the configuration or a table. -/
def Obligations.OnlyTheNamedOperationsWrite : Prop :=
  ∀ (i : Instr) (s t : State), exec i s = .next t → (∀ w : TickWord, i ≠ .tick w) → i ≠ .reset →
    t.cfg = s.cfg ∧ t.pending = s.pending ∧ t.started = s.started
    ∧ (t.ph ≠ s.ph → ∃ freq cv : Half, i = .phaseAdv freq cv)
    ∧ (∀ k : Fin 4, t.rot[k] ≠ s.rot[k] →
        (∃ rm : Int, i = .rotAdv k rm) ∨ (k = 0 ∧ i = .shapeFn) ∨ ∃ j : Fin 3, k.val = 1 + j.val ∧ i = .shapeMesh j)
    ∧ (t.fx ≠ s.fx ∨ t.fy ≠ s.fy → ∃ rx ry : Int, i = .lpfStep rx ry)
    ∧ (t.mod1 ≠ s.mod1 ∨ t.mod2 ≠ s.mod2 ∨ t.mode ≠ s.mode ∨ t.modeV ≠ s.modeV →
        ∃ a b c d e : Half, i = .modRouteAtt a b c d e ∨ i = .modRouteOfs a b c d e ∨ i = .modRouteOfs2 a b c d e)
    ∧ (t.g1 ≠ s.g1 ∨ t.g2 ≠ s.g2 →
        ∃ a b c d e : Half, i = .modRouteAtt a b c d e ∨ i = .modRouteOfs a b c d e ∨ i = .modRouteOfs2 a b c d e
          ∨ i = .guardFreeze a b ∨ i = .guardRelease a b)
    ∧ (t.ref1 ≠ s.ref1 ∨ t.ref2 ≠ s.ref2 →
        ∃ a b c d e : Half, i = .modRouteAtt a b c d e ∨ i = .modRouteOfs a b c d e ∨ i = .modRouteOfs2 a b c d e
          ∨ i = .guardFreeze a b)
    ∧ (t.bank ≠ s.bank ∨ t.slot ≠ s.slot → i = .selAdvOsc ∨ i = .selAdvBank ∨ i = .selAdvSlot)

/-- R33, R38: a generator's result depends on the configuration, the master phase, the modulation values and its own
rotation phase, and on nothing else of the state. -/
def Obligations.GeneratorsDoNotInterfere : Prop :=
  ∀ s1 s2 : State, s2.cfg = s1.cfg → s2.ph = s1.ph → s2.mod1 = s1.mod1 → s2.mod2 = s1.mod2 →
    (∀ j : Fin 3, ∃ t1 t2 : State,
      exec (.shapeWt j) s1 = .next t1 ∧ exec (.shapeWt j) s2 = .next t2 ∧ t2.result = t1.result)
    ∧ (s2.rot[(0 : Fin 4)] = s1.rot[(0 : Fin 4)] → ∃ t1 t2 : State,
      exec .shapeFn s1 = .next t1 ∧ exec .shapeFn s2 = .next t2 ∧ t2.result = t1.result
        ∧ t2.rot[(0 : Fin 4)] = t1.rot[(0 : Fin 4)])
    ∧ ∀ (j : Fin 3) (k : Fin 4) (t1 : State), k.val = 1 + j.val → s2.rot[k] = s1.rot[k] →
      exec (.shapeMesh j) s1 = .next t1 → ∃ t2 : State,
        exec (.shapeMesh j) s2 = .next t2 ∧ t2.result = t1.result ∧ t2.rot[k] = t1.rot[k]

/-- R192: the output word and the registers after a tick do not depend on what the last operation returned or on what the
host will present later. -/
def Obligations.TickDependsOnRegistersAlone : Prop :=
  ∀ (w : TickWord) (s u : State) (r : OpResult) (l : List HostEvent), exec (.tick w) s = .next u →
    exec (.tick w) { s with result := r, pending := l } = .next { u with pending := l }

/-- R194, R196: a run over `n` well-formed tick words has an observation of `n` output words; its last word is the one the
last tick returned, its final state the state after that tick, and the words before are those of the run over the tick
words before; nothing the host has yet to present is taken. -/
def Obligations.RunReturnsOneWordPerTick : Prop :=
  ∀ (ws : List TickBits) (s : State), s.started = true → cfgWellFormed s.cfg = true → selectorInRange s = true →
    (∀ w ∈ ws, tickWellFormed w = true) →
    ∃ r : Observation, observeTicks ws s = .next r
      ∧ r.outputs.length = ws.length
      ∧ r.final.pending = s.pending
      ∧ ∀ (l : List TickBits) (w : TickBits), ws = l ++ [w] → ∃ (q : Observation) (o : OutBits),
          observeTicks l s = .next q ∧ step (present (.tick w) q.final) = .next r.final
          ∧ r.final.result = .outWord o ∧ r.outputs = q.outputs ++ [o]

/-- R195: the configurations the model accepts are those that meet the constraints and whose every raw output, for every
phase, modulation value and rotation phase, fits a signed 32-bit word; the sufficient condition implies it. -/
def Obligations.AcceptedConfigurationsFit : Prop :=
  ∀ c : Cfg, cfgWellFormed c = true ↔
    structureOk c = true ∧ ∀ (p a : Phase) (gm mm : Int) (j : Fin 3),
      pairFits (rawFn c p gm a) = true ∧ meshFits (rawMesh c j p gm a) = true ∧ pairFits (rawWt c j p gm mm) = true

/-! ### Encodings -/

/-- R71 to R73, R80, R81: every operation that has a word is decoded from the word the encoder gives it, with every
operand. -/
def Obligations.DecodeInvertsEncode : Prop :=
  ∀ (i : Instr) (n w : Nat), encode i = some (n, w) → decodeTableWord n w = some i

/-- R71, R75, R82: a tick word decodes exactly where it is well-formed, and then encoding its fields gives it back, so no
bit is dropped. -/
def Obligations.WellFormedTickWordsRoundTrip : Prop :=
  ∀ w : TickBits, (tickWellFormed w = true ↔ ∃ t : TickWord, decodeTick w = .ok t)
    ∧ ∀ t : TickWord, decodeTick w = .ok t → encodeTick t = w

/-- R80 to R82, R88: of the 256 descriptor words exactly seven name a generator. -/
def Obligations.SevenDescriptorsAreLegal : Prop :=
  ∀ d : DescBits, (∃ g : Generator, decodeDesc d = .ok g) ↔
    d ∈ [0x00#8, 0x01#8, 0x05#8, 0x09#8, 0x02#8, 0x06#8, 0x0A#8]

/-- R80, R82, R84: the two example words of R84 decode to their lines' fields; two descriptors name their generators; a
reserved descriptor and a reserved switch code are refused. -/
def Obligations.ExampleTickWordsDecode : Prop :=
  decodeTableWord 128 0x00000001000008000000100000000800 = some (.tick {
      freq := 2048#16, cv := 0#16, ctl1 := 4096#16, aud1 := 0#16, ctl2 := 2048#16, aud2 := 0#16,
      sw := .ofs, trigOsc := false, trigBank := false, trigSlot := false })
  ∧ decodeTableWord 128 0x0000001400000800FFFF100000000800 = some (.tick {
      freq := 2048#16, cv := 0#16, ctl1 := 4096#16, aud1 := BitVec.ofInt 16 (-1), ctl2 := 2048#16, aud2 := 0#16,
      sw := .att, trigOsc := true, trigBank := false, trigSlot := true })
  ∧ decodeTableWord 8 0x09 = some (.shapeMesh 2) ∧ decodeTableWord 8 0x06 = some (.shapeWt 1)
  ∧ decodeTableWord 8 0x03 = none ∧ decodeTableWord 128 0x00000003000000000000000000000000 = none

/-- R84, R85: a repeated stream of one line stands for its tick word written `n` times. -/
def Obligations.RepeatExpandsToCopies : Prop :=
  ∀ (n : Nat) (l : TickLine) (t : TickWord), assemble l = some t →
    expand (.reset (.repeated n (.tick l .done) .done)) = some (.reset :: List.replicate n (.tick (encodeTick t)))

/-- What the model stops on (log entries 7, 8 and 9, R203): a path of no points, a bank that does not exist, a bank of no
slots, a layout without a bank, a selector that no descriptor stands at when slot G is reached, `RESET` and `TICK` under a
configuration it does not accept, and `TICK` before the first `RESET`. A slot operation that faults stops the tick. -/
def Obligations.StopsAreNamed : Prop :=
  ∀ (s : State) (j : Fin 3) (gp : Phase),
    (s.cfg.path[j] = [] → exec (.pathInterp j gp) s = .fault .emptyPath ∧ exec (.shapeMesh j) s = .fault .emptyPath)
    ∧ (s.cfg.gdesc.length ≤ s.bank.toNat →
        exec .selAdvOsc s = .fault .noSuchBank ∧ exec .selAdvSlot s = .fault .noSuchBank)
    ∧ (s.cfg.gdesc[s.bank.toNat]? = some [] → exec .selAdvSlot s = .fault .noSuchBank)
    ∧ (s.cfg.gdesc = [] → exec .selAdvBank s = .fault .noSuchBank)
    ∧ (cfgWellFormed s.cfg = false → exec .reset s = .refused .illFormedConfig)
    ∧ ∀ w : TickWord, (s.started = false → exec (.tick w) s = .refused .tickBeforeReset)
      ∧ (s.started = true → cfgWellFormed s.cfg = false → exec (.tick w) s = .refused .illFormedConfig)
      ∧ (s.started = true → cfgWellFormed s.cfg = true → selectorInRange s = false →
          w.trigOsc = false → w.trigBank = false → w.trigSlot = false → exec (.tick w) s = .fault .noSuchDescriptor)
      ∧ (s.started = true → cfgWellFormed s.cfg = true →
          (∀ t : State, runOps (tickOps w) s = .next t → selectorInRange t = false →
            exec (.tick w) s = .fault .noSuchDescriptor)
          ∧ ∀ r : Fault, runOps (tickOps w) s = .fault r → exec (.tick w) s = .fault r)
end

