-- ==== Sys2Proof/Laws/State.lean ====
section
/-! SUPPORT. What each register update of Machine/Ops.lean does to each field of State, once, so that no later proof
unfolds a record update. -/

namespace Sys2Proof.Machine

@[simp] theorem setPh_ph (v : Phase) (s : State) : (setPh v s).ph = v := rfl
@[simp] theorem setPh_rot (v : Phase) (s : State) : (setPh v s).rot = s.rot := rfl
@[simp] theorem setPh_fx (v : Phase) (s : State) : (setPh v s).fx = s.fx := rfl
@[simp] theorem setPh_fy (v : Phase) (s : State) : (setPh v s).fy = s.fy := rfl
@[simp] theorem setPh_mod1 (v : Phase) (s : State) : (setPh v s).mod1 = s.mod1 := rfl
@[simp] theorem setPh_mod2 (v : Phase) (s : State) : (setPh v s).mod2 = s.mod2 := rfl
@[simp] theorem setPh_g1 (v : Phase) (s : State) : (setPh v s).g1 = s.g1 := rfl
@[simp] theorem setPh_g2 (v : Phase) (s : State) : (setPh v s).g2 = s.g2 := rfl
@[simp] theorem setPh_ref1 (v : Phase) (s : State) : (setPh v s).ref1 = s.ref1 := rfl
@[simp] theorem setPh_ref2 (v : Phase) (s : State) : (setPh v s).ref2 = s.ref2 := rfl
@[simp] theorem setPh_mode (v : Phase) (s : State) : (setPh v s).mode = s.mode := rfl
@[simp] theorem setPh_modeV (v : Phase) (s : State) : (setPh v s).modeV = s.modeV := rfl
@[simp] theorem setPh_bank (v : Phase) (s : State) : (setPh v s).bank = s.bank := rfl
@[simp] theorem setPh_slot (v : Phase) (s : State) : (setPh v s).slot = s.slot := rfl
@[simp] theorem setPh_cfg (v : Phase) (s : State) : (setPh v s).cfg = s.cfg := rfl
@[simp] theorem setPh_started (v : Phase) (s : State) : (setPh v s).started = s.started := rfl
@[simp] theorem setPh_result (v : Phase) (s : State) : (setPh v s).result = s.result := rfl
@[simp] theorem setPh_pending (v : Phase) (s : State) : (setPh v s).pending = s.pending := rfl

@[simp] theorem setRot_ph (i : Fin 4) (v : Phase) (s : State) : (setRot i v s).ph = s.ph := rfl
@[simp] theorem setRot_rot (i : Fin 4) (v : Phase) (s : State) : (setRot i v s).rot = s.rot.set i v := rfl
@[simp] theorem setRot_fx (i : Fin 4) (v : Phase) (s : State) : (setRot i v s).fx = s.fx := rfl
@[simp] theorem setRot_fy (i : Fin 4) (v : Phase) (s : State) : (setRot i v s).fy = s.fy := rfl
@[simp] theorem setRot_mod1 (i : Fin 4) (v : Phase) (s : State) : (setRot i v s).mod1 = s.mod1 := rfl
@[simp] theorem setRot_mod2 (i : Fin 4) (v : Phase) (s : State) : (setRot i v s).mod2 = s.mod2 := rfl
@[simp] theorem setRot_g1 (i : Fin 4) (v : Phase) (s : State) : (setRot i v s).g1 = s.g1 := rfl
@[simp] theorem setRot_g2 (i : Fin 4) (v : Phase) (s : State) : (setRot i v s).g2 = s.g2 := rfl
@[simp] theorem setRot_ref1 (i : Fin 4) (v : Phase) (s : State) : (setRot i v s).ref1 = s.ref1 := rfl
@[simp] theorem setRot_ref2 (i : Fin 4) (v : Phase) (s : State) : (setRot i v s).ref2 = s.ref2 := rfl
@[simp] theorem setRot_mode (i : Fin 4) (v : Phase) (s : State) : (setRot i v s).mode = s.mode := rfl
@[simp] theorem setRot_modeV (i : Fin 4) (v : Phase) (s : State) : (setRot i v s).modeV = s.modeV := rfl
@[simp] theorem setRot_bank (i : Fin 4) (v : Phase) (s : State) : (setRot i v s).bank = s.bank := rfl
@[simp] theorem setRot_slot (i : Fin 4) (v : Phase) (s : State) : (setRot i v s).slot = s.slot := rfl
@[simp] theorem setRot_cfg (i : Fin 4) (v : Phase) (s : State) : (setRot i v s).cfg = s.cfg := rfl
@[simp] theorem setRot_started (i : Fin 4) (v : Phase) (s : State) : (setRot i v s).started = s.started := rfl
@[simp] theorem setRot_result (i : Fin 4) (v : Phase) (s : State) : (setRot i v s).result = s.result := rfl
@[simp] theorem setRot_pending (i : Fin 4) (v : Phase) (s : State) : (setRot i v s).pending = s.pending := rfl

@[simp] theorem setFilter_ph (x y : Word32) (s : State) : (setFilter x y s).ph = s.ph := rfl
@[simp] theorem setFilter_rot (x y : Word32) (s : State) : (setFilter x y s).rot = s.rot := rfl
@[simp] theorem setFilter_fx (x y : Word32) (s : State) : (setFilter x y s).fx = x := rfl
@[simp] theorem setFilter_fy (x y : Word32) (s : State) : (setFilter x y s).fy = y := rfl
@[simp] theorem setFilter_mod1 (x y : Word32) (s : State) : (setFilter x y s).mod1 = s.mod1 := rfl
@[simp] theorem setFilter_mod2 (x y : Word32) (s : State) : (setFilter x y s).mod2 = s.mod2 := rfl
@[simp] theorem setFilter_g1 (x y : Word32) (s : State) : (setFilter x y s).g1 = s.g1 := rfl
@[simp] theorem setFilter_g2 (x y : Word32) (s : State) : (setFilter x y s).g2 = s.g2 := rfl
@[simp] theorem setFilter_ref1 (x y : Word32) (s : State) : (setFilter x y s).ref1 = s.ref1 := rfl
@[simp] theorem setFilter_ref2 (x y : Word32) (s : State) : (setFilter x y s).ref2 = s.ref2 := rfl
@[simp] theorem setFilter_mode (x y : Word32) (s : State) : (setFilter x y s).mode = s.mode := rfl
@[simp] theorem setFilter_modeV (x y : Word32) (s : State) : (setFilter x y s).modeV = s.modeV := rfl
@[simp] theorem setFilter_bank (x y : Word32) (s : State) : (setFilter x y s).bank = s.bank := rfl
@[simp] theorem setFilter_slot (x y : Word32) (s : State) : (setFilter x y s).slot = s.slot := rfl
@[simp] theorem setFilter_cfg (x y : Word32) (s : State) : (setFilter x y s).cfg = s.cfg := rfl
@[simp] theorem setFilter_started (x y : Word32) (s : State) : (setFilter x y s).started = s.started := rfl
@[simp] theorem setFilter_result (x y : Word32) (s : State) : (setFilter x y s).result = s.result := rfl
@[simp] theorem setFilter_pending (x y : Word32) (s : State) : (setFilter x y s).pending = s.pending := rfl

@[simp] theorem setMod1_ph (v : Word32) (s : State) : (setMod1 v s).ph = s.ph := rfl
@[simp] theorem setMod1_rot (v : Word32) (s : State) : (setMod1 v s).rot = s.rot := rfl
@[simp] theorem setMod1_fx (v : Word32) (s : State) : (setMod1 v s).fx = s.fx := rfl
@[simp] theorem setMod1_fy (v : Word32) (s : State) : (setMod1 v s).fy = s.fy := rfl
@[simp] theorem setMod1_mod1 (v : Word32) (s : State) : (setMod1 v s).mod1 = v := rfl
@[simp] theorem setMod1_mod2 (v : Word32) (s : State) : (setMod1 v s).mod2 = s.mod2 := rfl
@[simp] theorem setMod1_g1 (v : Word32) (s : State) : (setMod1 v s).g1 = s.g1 := rfl
@[simp] theorem setMod1_g2 (v : Word32) (s : State) : (setMod1 v s).g2 = s.g2 := rfl
@[simp] theorem setMod1_ref1 (v : Word32) (s : State) : (setMod1 v s).ref1 = s.ref1 := rfl
@[simp] theorem setMod1_ref2 (v : Word32) (s : State) : (setMod1 v s).ref2 = s.ref2 := rfl
@[simp] theorem setMod1_mode (v : Word32) (s : State) : (setMod1 v s).mode = s.mode := rfl
@[simp] theorem setMod1_modeV (v : Word32) (s : State) : (setMod1 v s).modeV = s.modeV := rfl
@[simp] theorem setMod1_bank (v : Word32) (s : State) : (setMod1 v s).bank = s.bank := rfl
@[simp] theorem setMod1_slot (v : Word32) (s : State) : (setMod1 v s).slot = s.slot := rfl
@[simp] theorem setMod1_cfg (v : Word32) (s : State) : (setMod1 v s).cfg = s.cfg := rfl
@[simp] theorem setMod1_started (v : Word32) (s : State) : (setMod1 v s).started = s.started := rfl
@[simp] theorem setMod1_result (v : Word32) (s : State) : (setMod1 v s).result = s.result := rfl
@[simp] theorem setMod1_pending (v : Word32) (s : State) : (setMod1 v s).pending = s.pending := rfl

@[simp] theorem setMod2_ph (v : Word32) (s : State) : (setMod2 v s).ph = s.ph := rfl
@[simp] theorem setMod2_rot (v : Word32) (s : State) : (setMod2 v s).rot = s.rot := rfl
@[simp] theorem setMod2_fx (v : Word32) (s : State) : (setMod2 v s).fx = s.fx := rfl
@[simp] theorem setMod2_fy (v : Word32) (s : State) : (setMod2 v s).fy = s.fy := rfl
@[simp] theorem setMod2_mod1 (v : Word32) (s : State) : (setMod2 v s).mod1 = s.mod1 := rfl
@[simp] theorem setMod2_mod2 (v : Word32) (s : State) : (setMod2 v s).mod2 = v := rfl
@[simp] theorem setMod2_g1 (v : Word32) (s : State) : (setMod2 v s).g1 = s.g1 := rfl
@[simp] theorem setMod2_g2 (v : Word32) (s : State) : (setMod2 v s).g2 = s.g2 := rfl
@[simp] theorem setMod2_ref1 (v : Word32) (s : State) : (setMod2 v s).ref1 = s.ref1 := rfl
@[simp] theorem setMod2_ref2 (v : Word32) (s : State) : (setMod2 v s).ref2 = s.ref2 := rfl
@[simp] theorem setMod2_mode (v : Word32) (s : State) : (setMod2 v s).mode = s.mode := rfl
@[simp] theorem setMod2_modeV (v : Word32) (s : State) : (setMod2 v s).modeV = s.modeV := rfl
@[simp] theorem setMod2_bank (v : Word32) (s : State) : (setMod2 v s).bank = s.bank := rfl
@[simp] theorem setMod2_slot (v : Word32) (s : State) : (setMod2 v s).slot = s.slot := rfl
@[simp] theorem setMod2_cfg (v : Word32) (s : State) : (setMod2 v s).cfg = s.cfg := rfl
@[simp] theorem setMod2_started (v : Word32) (s : State) : (setMod2 v s).started = s.started := rfl
@[simp] theorem setMod2_result (v : Word32) (s : State) : (setMod2 v s).result = s.result := rfl
@[simp] theorem setMod2_pending (v : Word32) (s : State) : (setMod2 v s).pending = s.pending := rfl

@[simp] theorem setGuards_ph (a b : Bool) (s : State) : (setGuards a b s).ph = s.ph := rfl
@[simp] theorem setGuards_rot (a b : Bool) (s : State) : (setGuards a b s).rot = s.rot := rfl
@[simp] theorem setGuards_fx (a b : Bool) (s : State) : (setGuards a b s).fx = s.fx := rfl
@[simp] theorem setGuards_fy (a b : Bool) (s : State) : (setGuards a b s).fy = s.fy := rfl
@[simp] theorem setGuards_mod1 (a b : Bool) (s : State) : (setGuards a b s).mod1 = s.mod1 := rfl
@[simp] theorem setGuards_mod2 (a b : Bool) (s : State) : (setGuards a b s).mod2 = s.mod2 := rfl
@[simp] theorem setGuards_g1 (a b : Bool) (s : State) : (setGuards a b s).g1 = a := rfl
@[simp] theorem setGuards_g2 (a b : Bool) (s : State) : (setGuards a b s).g2 = b := rfl
@[simp] theorem setGuards_ref1 (a b : Bool) (s : State) : (setGuards a b s).ref1 = s.ref1 := rfl
@[simp] theorem setGuards_ref2 (a b : Bool) (s : State) : (setGuards a b s).ref2 = s.ref2 := rfl
@[simp] theorem setGuards_mode (a b : Bool) (s : State) : (setGuards a b s).mode = s.mode := rfl
@[simp] theorem setGuards_modeV (a b : Bool) (s : State) : (setGuards a b s).modeV = s.modeV := rfl
@[simp] theorem setGuards_bank (a b : Bool) (s : State) : (setGuards a b s).bank = s.bank := rfl
@[simp] theorem setGuards_slot (a b : Bool) (s : State) : (setGuards a b s).slot = s.slot := rfl
@[simp] theorem setGuards_cfg (a b : Bool) (s : State) : (setGuards a b s).cfg = s.cfg := rfl
@[simp] theorem setGuards_started (a b : Bool) (s : State) : (setGuards a b s).started = s.started := rfl
@[simp] theorem setGuards_result (a b : Bool) (s : State) : (setGuards a b s).result = s.result := rfl
@[simp] theorem setGuards_pending (a b : Bool) (s : State) : (setGuards a b s).pending = s.pending := rfl

@[simp] theorem setRefs_ph (a b : Half) (s : State) : (setRefs a b s).ph = s.ph := rfl
@[simp] theorem setRefs_rot (a b : Half) (s : State) : (setRefs a b s).rot = s.rot := rfl
@[simp] theorem setRefs_fx (a b : Half) (s : State) : (setRefs a b s).fx = s.fx := rfl
@[simp] theorem setRefs_fy (a b : Half) (s : State) : (setRefs a b s).fy = s.fy := rfl
@[simp] theorem setRefs_mod1 (a b : Half) (s : State) : (setRefs a b s).mod1 = s.mod1 := rfl
@[simp] theorem setRefs_mod2 (a b : Half) (s : State) : (setRefs a b s).mod2 = s.mod2 := rfl
@[simp] theorem setRefs_g1 (a b : Half) (s : State) : (setRefs a b s).g1 = s.g1 := rfl
@[simp] theorem setRefs_g2 (a b : Half) (s : State) : (setRefs a b s).g2 = s.g2 := rfl
@[simp] theorem setRefs_ref1 (a b : Half) (s : State) : (setRefs a b s).ref1 = a := rfl
@[simp] theorem setRefs_ref2 (a b : Half) (s : State) : (setRefs a b s).ref2 = b := rfl
@[simp] theorem setRefs_mode (a b : Half) (s : State) : (setRefs a b s).mode = s.mode := rfl
@[simp] theorem setRefs_modeV (a b : Half) (s : State) : (setRefs a b s).modeV = s.modeV := rfl
@[simp] theorem setRefs_bank (a b : Half) (s : State) : (setRefs a b s).bank = s.bank := rfl
@[simp] theorem setRefs_slot (a b : Half) (s : State) : (setRefs a b s).slot = s.slot := rfl
@[simp] theorem setRefs_cfg (a b : Half) (s : State) : (setRefs a b s).cfg = s.cfg := rfl
@[simp] theorem setRefs_started (a b : Half) (s : State) : (setRefs a b s).started = s.started := rfl
@[simp] theorem setRefs_result (a b : Half) (s : State) : (setRefs a b s).result = s.result := rfl
@[simp] theorem setRefs_pending (a b : Half) (s : State) : (setRefs a b s).pending = s.pending := rfl

@[simp] theorem setMode_ph (m : RouterMode) (s : State) : (setMode m s).ph = s.ph := rfl
@[simp] theorem setMode_rot (m : RouterMode) (s : State) : (setMode m s).rot = s.rot := rfl
@[simp] theorem setMode_fx (m : RouterMode) (s : State) : (setMode m s).fx = s.fx := rfl
@[simp] theorem setMode_fy (m : RouterMode) (s : State) : (setMode m s).fy = s.fy := rfl
@[simp] theorem setMode_mod1 (m : RouterMode) (s : State) : (setMode m s).mod1 = s.mod1 := rfl
@[simp] theorem setMode_mod2 (m : RouterMode) (s : State) : (setMode m s).mod2 = s.mod2 := rfl
@[simp] theorem setMode_g1 (m : RouterMode) (s : State) : (setMode m s).g1 = s.g1 := rfl
@[simp] theorem setMode_g2 (m : RouterMode) (s : State) : (setMode m s).g2 = s.g2 := rfl
@[simp] theorem setMode_ref1 (m : RouterMode) (s : State) : (setMode m s).ref1 = s.ref1 := rfl
@[simp] theorem setMode_ref2 (m : RouterMode) (s : State) : (setMode m s).ref2 = s.ref2 := rfl
@[simp] theorem setMode_mode (m : RouterMode) (s : State) : (setMode m s).mode = m := rfl
@[simp] theorem setMode_modeV (m : RouterMode) (s : State) : (setMode m s).modeV = true := rfl
@[simp] theorem setMode_bank (m : RouterMode) (s : State) : (setMode m s).bank = s.bank := rfl
@[simp] theorem setMode_slot (m : RouterMode) (s : State) : (setMode m s).slot = s.slot := rfl
@[simp] theorem setMode_cfg (m : RouterMode) (s : State) : (setMode m s).cfg = s.cfg := rfl
@[simp] theorem setMode_started (m : RouterMode) (s : State) : (setMode m s).started = s.started := rfl
@[simp] theorem setMode_result (m : RouterMode) (s : State) : (setMode m s).result = s.result := rfl
@[simp] theorem setMode_pending (m : RouterMode) (s : State) : (setMode m s).pending = s.pending := rfl

@[simp] theorem setSelector_ph (b k : BitVec 4) (s : State) : (setSelector b k s).ph = s.ph := rfl
@[simp] theorem setSelector_rot (b k : BitVec 4) (s : State) : (setSelector b k s).rot = s.rot := rfl
@[simp] theorem setSelector_fx (b k : BitVec 4) (s : State) : (setSelector b k s).fx = s.fx := rfl
@[simp] theorem setSelector_fy (b k : BitVec 4) (s : State) : (setSelector b k s).fy = s.fy := rfl
@[simp] theorem setSelector_mod1 (b k : BitVec 4) (s : State) : (setSelector b k s).mod1 = s.mod1 := rfl
@[simp] theorem setSelector_mod2 (b k : BitVec 4) (s : State) : (setSelector b k s).mod2 = s.mod2 := rfl
@[simp] theorem setSelector_g1 (b k : BitVec 4) (s : State) : (setSelector b k s).g1 = s.g1 := rfl
@[simp] theorem setSelector_g2 (b k : BitVec 4) (s : State) : (setSelector b k s).g2 = s.g2 := rfl
@[simp] theorem setSelector_ref1 (b k : BitVec 4) (s : State) : (setSelector b k s).ref1 = s.ref1 := rfl
@[simp] theorem setSelector_ref2 (b k : BitVec 4) (s : State) : (setSelector b k s).ref2 = s.ref2 := rfl
@[simp] theorem setSelector_mode (b k : BitVec 4) (s : State) : (setSelector b k s).mode = s.mode := rfl
@[simp] theorem setSelector_modeV (b k : BitVec 4) (s : State) : (setSelector b k s).modeV = s.modeV := rfl
@[simp] theorem setSelector_bank (b k : BitVec 4) (s : State) : (setSelector b k s).bank = b := rfl
@[simp] theorem setSelector_slot (b k : BitVec 4) (s : State) : (setSelector b k s).slot = k := rfl
@[simp] theorem setSelector_cfg (b k : BitVec 4) (s : State) : (setSelector b k s).cfg = s.cfg := rfl
@[simp] theorem setSelector_started (b k : BitVec 4) (s : State) : (setSelector b k s).started = s.started := rfl
@[simp] theorem setSelector_result (b k : BitVec 4) (s : State) : (setSelector b k s).result = s.result := rfl
@[simp] theorem setSelector_pending (b k : BitVec 4) (s : State) : (setSelector b k s).pending = s.pending := rfl

@[simp] theorem answer_ph (r : OpResult) (s : State) : (answer r s).ph = s.ph := rfl
@[simp] theorem answer_rot (r : OpResult) (s : State) : (answer r s).rot = s.rot := rfl
@[simp] theorem answer_fx (r : OpResult) (s : State) : (answer r s).fx = s.fx := rfl
@[simp] theorem answer_fy (r : OpResult) (s : State) : (answer r s).fy = s.fy := rfl
@[simp] theorem answer_mod1 (r : OpResult) (s : State) : (answer r s).mod1 = s.mod1 := rfl
@[simp] theorem answer_mod2 (r : OpResult) (s : State) : (answer r s).mod2 = s.mod2 := rfl
@[simp] theorem answer_g1 (r : OpResult) (s : State) : (answer r s).g1 = s.g1 := rfl
@[simp] theorem answer_g2 (r : OpResult) (s : State) : (answer r s).g2 = s.g2 := rfl
@[simp] theorem answer_ref1 (r : OpResult) (s : State) : (answer r s).ref1 = s.ref1 := rfl
@[simp] theorem answer_ref2 (r : OpResult) (s : State) : (answer r s).ref2 = s.ref2 := rfl
@[simp] theorem answer_mode (r : OpResult) (s : State) : (answer r s).mode = s.mode := rfl
@[simp] theorem answer_modeV (r : OpResult) (s : State) : (answer r s).modeV = s.modeV := rfl
@[simp] theorem answer_bank (r : OpResult) (s : State) : (answer r s).bank = s.bank := rfl
@[simp] theorem answer_slot (r : OpResult) (s : State) : (answer r s).slot = s.slot := rfl
@[simp] theorem answer_cfg (r : OpResult) (s : State) : (answer r s).cfg = s.cfg := rfl
@[simp] theorem answer_started (r : OpResult) (s : State) : (answer r s).started = s.started := rfl
@[simp] theorem answer_result (r : OpResult) (s : State) : (answer r s).result = r := rfl
@[simp] theorem answer_pending (r : OpResult) (s : State) : (answer r s).pending = s.pending := rfl

@[simp] theorem setPending_ph (l : List HostEvent) (s : State) : (setPending l s).ph = s.ph := rfl
@[simp] theorem setPending_rot (l : List HostEvent) (s : State) : (setPending l s).rot = s.rot := rfl
@[simp] theorem setPending_fx (l : List HostEvent) (s : State) : (setPending l s).fx = s.fx := rfl
@[simp] theorem setPending_fy (l : List HostEvent) (s : State) : (setPending l s).fy = s.fy := rfl
@[simp] theorem setPending_mod1 (l : List HostEvent) (s : State) : (setPending l s).mod1 = s.mod1 := rfl
@[simp] theorem setPending_mod2 (l : List HostEvent) (s : State) : (setPending l s).mod2 = s.mod2 := rfl
@[simp] theorem setPending_g1 (l : List HostEvent) (s : State) : (setPending l s).g1 = s.g1 := rfl
@[simp] theorem setPending_g2 (l : List HostEvent) (s : State) : (setPending l s).g2 = s.g2 := rfl
@[simp] theorem setPending_ref1 (l : List HostEvent) (s : State) : (setPending l s).ref1 = s.ref1 := rfl
@[simp] theorem setPending_ref2 (l : List HostEvent) (s : State) : (setPending l s).ref2 = s.ref2 := rfl
@[simp] theorem setPending_mode (l : List HostEvent) (s : State) : (setPending l s).mode = s.mode := rfl
@[simp] theorem setPending_modeV (l : List HostEvent) (s : State) : (setPending l s).modeV = s.modeV := rfl
@[simp] theorem setPending_bank (l : List HostEvent) (s : State) : (setPending l s).bank = s.bank := rfl
@[simp] theorem setPending_slot (l : List HostEvent) (s : State) : (setPending l s).slot = s.slot := rfl
@[simp] theorem setPending_cfg (l : List HostEvent) (s : State) : (setPending l s).cfg = s.cfg := rfl
@[simp] theorem setPending_started (l : List HostEvent) (s : State) : (setPending l s).started = s.started := rfl
@[simp] theorem setPending_result (l : List HostEvent) (s : State) : (setPending l s).result = s.result := rfl
@[simp] theorem setPending_pending (l : List HostEvent) (s : State) : (setPending l s).pending = l := rfl

@[simp] theorem setRot_rot_self (i : Fin 4) (v : Phase) (s : State) : (setRot i v s).rot[i] = v := by
  simp

@[simp] theorem setRot_rot_other (i k : Fin 4) (v : Phase) (s : State) (h : i ≠ k) :
    (setRot i v s).rot[k] = s.rot[k] := by
  have : i.val ≠ k.val := fun e => h (Fin.ext e)
  simp [this]

@[simp] theorem answer_answer (q r : OpResult) (s : State) : answer q (answer r s) = answer q s := rfl
@[simp] theorem setSelector_answer (b k : BitVec 4) (r : OpResult) (s : State) :
    setSelector b k (answer r s) = answer r (setSelector b k s) := rfl
@[simp] theorem setSelector_setSelector (b k b' k' : BitVec 4) (s : State) :
    setSelector b k (setSelector b' k' s) = setSelector b k s := rfl

end Sys2Proof.Machine
end

