-- ==== Sys2Proof/Laws/Ops.lean ====
section
/-! SUPPORT. What the arithmetic primitives, the table reads and the operand forms do, once each, in the terms the rules
use: floor division, `max` and `min`, remainders. -/

namespace Sys2Proof.Machine

/-! ### Arithmetic (R11) -/

theorem asr_eq (v : Int) (n : Nat) : asr v n = v / 2 ^ n := by
  simp [asr]

theorem clamp_eq_max_min (v lo hi : Int) (h : lo ≤ hi) : clamp v lo hi = max lo (min v hi) := by
  unfold clamp; split
  · omega
  · split <;> omega

theorem cut32_toNat (v : Int) : ((cut32 v).toNat : Int) = v % 4294967296 := by
  simp only [cut32, BitVec.toNat_ofInt]; omega

theorem cut32_toInt_of_fits (v : Int) (h : fitsS32 v = true) : (cut32 v).toInt = v := by
  simp only [fitsS32, Bool.and_eq_true, decide_eq_true_eq] at h
  simp only [cut32, BitVec.toInt_ofInt, Int.bmod]; omega

theorem half_toInt_bounds (h : Half) : -32768 ≤ h.toInt ∧ h.toInt ≤ 32767 := by
  have h1 := BitVec.le_toInt h
  have h2 := BitVec.toInt_lt (x := h)
  constructor <;> simp at h1 h2 ⊢ <;> omega

theorem word32_fits (w : Word32) : fitsS32 w.toInt = true := by
  have h1 := BitVec.le_toInt w
  have h2 := BitVec.toInt_lt (x := w)
  simp only [fitsS32, Bool.and_eq_true, decide_eq_true_eq]
  constructor <;> simp at h1 h2 ⊢ <;> omega

/-- A product shifted right stays within any bound the product has, if the bound is on both sides of 0. -/
theorem asr_natAbs_le (v : Int) (n b : Nat) (h : v.natAbs ≤ b) : (asr v n).natAbs ≤ b := by
  have hp : (1 : Int) ≤ ((2 ^ n : Nat) : Int) := by exact_mod_cast Nat.one_le_two_pow
  have h1 : -(b : Int) ≤ v := by omega
  have h2 : v ≤ (b : Int) := by omega
  have h3 : -(b : Int) ≤ asr v n := by
    rw [asr, Int.le_ediv_iff_mul_le (by omega)]; nlinarith
  have h4 : asr v n ≤ (b : Int) := by
    rw [asr]; exact (Int.ediv_le_of_le_mul (by omega) (by nlinarith))
  omega

/-- A product shifted right by `n` is within the bound `b` where the product is within `b * 2^n`. -/
theorem asr_natAbs_le_of_scaled (v : Int) (n b : Nat) (h : v.natAbs ≤ b * 2 ^ n) : (asr v n).natAbs ≤ b := by
  have hp : (0 : Int) < 2 ^ n := by positivity
  have e : ((b * 2 ^ n : Nat) : Int) = (b : Int) * 2 ^ n := by push_cast; ring
  have h3 : -(b : Int) ≤ v / 2 ^ n := by rw [Int.le_ediv_iff_mul_le hp]; linarith [show -((b : Int) * 2 ^ n) ≤ v by omega]
  have h4 : v / 2 ^ n ≤ b := Int.ediv_le_of_le_mul hp (by omega)
  rw [asr_eq]; omega

/-- The interpolation law: with a weight from 0 to `2^f` the result lies between the two values (R116, R152). -/
theorem interpolate_between (a b w : Int) (f : Nat) (h0 : 0 ≤ w) (h1 : w ≤ 2 ^ f) :
    min a b ≤ interpolate a b w f ∧ interpolate a b w f ≤ max a b := by
  have hp : (0 : Int) < 2 ^ f := by positivity
  rw [interpolate, asr_eq]
  rcases le_total a b with hab | hab
  · have h2 : 0 ≤ (b - a) * w / 2 ^ f := Int.ediv_nonneg (by nlinarith) hp.le
    have h3 : (b - a) * w / 2 ^ f ≤ b - a := Int.ediv_le_of_le_mul hp (by nlinarith)
    omega
  · have h2 : (b - a) * w / 2 ^ f ≤ 0 := Int.ediv_le_of_le_mul hp (by nlinarith)
    have h3 : b - a ≤ (b - a) * w / 2 ^ f := by
      rw [Int.le_ediv_iff_mul_le hp]; nlinarith
    omega

theorem interpolate_zero (a b : Int) (f : Nat) : interpolate a b 0 f = a := by
  simp [interpolate, asr]

theorem interpolate_full (a b : Int) (f : Nat) : interpolate a b (2 ^ f) f = b := by
  rw [interpolate, asr_eq, Int.mul_ediv_cancel _ (by positivity)]; omega

theorem allBelow_iff (n : Nat) (f : Nat → Bool) : allBelow n f = true ↔ ∀ i, i < n → f i = true := by
  induction n with
  | zero => simp [allBelow]
  | succ n ih =>
    simp only [allBelow, Bool.and_eq_true, ih]
    constructor
    · rintro ⟨h1, h2⟩ i hi
      rcases Nat.lt_succ_iff_lt_or_eq.mp hi with h | rfl
      · exact h2 i h
      · exact h1
    · intro h
      exact ⟨h n (by omega), fun i hi => h i (by omega)⟩

/-! ### Operand forms (R65, R201) -/

theorem incIndex_val (freq cv : Half) :
    (incIndex freq cv).val = (max 0 (min (freq.toInt + cv.toInt) 4095)).toNat := by
  simp only [incIndex, clamp_eq_max_min _ _ _ (show (0 : Int) ≤ 4095 by omega)]

theorem growValue_eq (c : Cfg) (gm : Int) : growValue c gm = max (c.growMin.val : Int) (min gm 4096) :=
  clamp_eq_max_min _ _ _ (by have := c.growMin.isLt; omega)

theorem rotValue_eq (rm : Int) : rotValue rm = max 0 (min rm 4096) :=
  clamp_eq_max_min _ _ _ (by omega)

theorem morphValue_eq (mm : Int) : morphValue mm = max 0 (min mm 4096) :=
  clamp_eq_max_min _ _ _ (by omega)

theorem growValue_bounds (c : Cfg) (gm : Int) : 0 ≤ growValue c gm ∧ growValue c gm ≤ 4096 := by
  have := c.growMin.isLt
  rw [growValue_eq]; omega

theorem lutIndex_val (t : SampleTable) (p : Phase) : (lutIndex t p).val = p.toNat / 2 ^ (32 - t.indexBits) := by
  simp [lutIndex, Nat.shiftRight_eq_div_pow]

theorem lutWeight_lt (t : SampleTable) (p : Phase) : lutWeight t p < 2 ^ (32 - t.indexBits) :=
  Nat.mod_lt _ (Nat.two_pow_pos _)

theorem segIndex_eq (len : Nat) (gp : Phase) : segIndex len gp = gp.toNat * len / 4294967296 := by
  simp [segIndex, Nat.shiftRight_eq_div_pow]

theorem segIndex_lt (len : Nat) (gp : Phase) (h : 1 ≤ len) : segIndex len gp < len := by
  rw [segIndex_eq, Nat.div_lt_iff_lt_mul (by omega)]
  have := gp.isLt
  nlinarith

theorem arcIndex_val (gp : Phase) : (arcIndex gp).val = gp.toNat / 1073741824 := by
  simp [arcIndex, Nat.shiftRight_eq_div_pow]

/-! ### Table reads (R52): the entry read, as an entry of the table's list -/

theorem readInc_mem (c : Cfg) (i : Fin 4096) : c.inc.toList[i.val]? = some (readInc c i) := by
  simp [readInc]

theorem readArc_mem (c : Cfg) (i : Fin 4) : c.fnArc.toList[i.val]? = some (readArc c i) := by
  simp [readArc]

theorem readSample_mem (c : Cfg) (t : SampleTable) (i : Fin (2 ^ t.indexBits)) :
    (sampleTable c t).toList[i.val]? = some ((sampleTable c t)[i]) := by
  simp

theorem readSample_bounds (c : Cfg) (t : SampleTable) (i : Fin (2 ^ t.indexBits)) :
    -32768 ≤ readSample c t i ∧ readSample c t i ≤ 32767 :=
  half_toInt_bounds _

/-- A lookup lies between the two entries it reads (R116). -/
theorem lutRead_between (c : Cfg) (t : SampleTable) (p : Phase) :
    min (readSample c t (lutIndex t p)) (readSample c t (lutNext t (lutIndex t p))) ≤ lutRead c t p
    ∧ lutRead c t p ≤ max (readSample c t (lutIndex t p)) (readSample c t (lutNext t (lutIndex t p))) :=
  interpolate_between _ _ _ _ (by omega) (by exact_mod_cast (lutWeight_lt t p).le)

/-- The growth-scaled phase, with no cut: it never exceeds the phase (R122). -/
theorem growScale_toNat (c : Cfg) (p : Phase) (gm : Int) :
    (growScale c p gm).toNat = p.toNat * (growValue c gm).toNat / 4096 := by
  have hb := growValue_bounds c gm
  have hp := p.isLt
  have h1 : p.toNat * (growValue c gm).toNat ≤ p.toNat * 4096 := Nat.mul_le_mul_left _ (by omega)
  simp only [growScale, BitVec.toNat_ofNat, Nat.shiftRight_eq_div_pow]
  omega

/-- On a path with a point, `PATH.INTERP` reads two points and interpolates each coordinate (R141). -/
theorem pathInterp_of_points (c : Cfg) (j : Fin 3) (gp : Phase) (h : 1 ≤ pathLen c j) :
    ∃ a b : PathPoint, readPath c j (segIndex (pathLen c j) gp) = some a
      ∧ readPath c j ((segIndex (pathLen c j) gp + 1) % pathLen c j) = some b
      ∧ pathInterp c j gp = some {
          x := interpolate a.x.toInt b.x.toInt (segWeight (pathLen c j) gp) 32
          y := interpolate a.y.toInt b.y.toInt (segWeight (pathLen c j) gp) 32
          z := interpolate a.z.toInt b.z.toInt (segWeight (pathLen c j) gp) 32 } := by
  have h1 := segIndex_lt (pathLen c j) gp h
  have h2 := Nat.mod_lt (segIndex (pathLen c j) gp + 1) (show 0 < pathLen c j from h)
  have e1 : readPath c j (segIndex (pathLen c j) gp) = some _ := List.getElem?_eq_getElem h1
  have e2 : readPath c j ((segIndex (pathLen c j) gp + 1) % pathLen c j) = some _ := List.getElem?_eq_getElem h2
  exact ⟨_, _, e1, e2, by simp only [pathInterp, e1, e2]⟩

/-- The router's two formulas never leave 2^30 (R39). -/
theorem modFormula_natAbs_le (c : Cfg) (m : RouterMode) (ctl aud : Half) :
    (modFormula c m ctl aud).natAbs ≤ 2 ^ 30 := by
  have h1 := half_toInt_bounds ctl
  have h2 := half_toInt_bounds aud
  cases m with
  | attenuate =>
    refine asr_natAbs_le _ _ _ ?_
    rw [Int.natAbs_mul]
    calc aud.toInt.natAbs * ctl.toInt.natAbs ≤ 2 ^ 15 * 2 ^ 15 := Nat.mul_le_mul (by omega) (by omega)
      _ = 2 ^ 30 := by norm_num
  | offset => simp only [modFormula]; omega

/-- So the write to a modulation register cuts nothing (R39). -/
theorem modFormula_not_cut (c : Cfg) (m : RouterMode) (ctl aud : Half) :
    (cut32 (modFormula c m ctl aud)).toInt = modFormula c m ctl aud := by
  have h := modFormula_natAbs_le c m ctl aud
  refine cut32_toInt_of_fits _ ?_
  simp only [fitsS32, Bool.and_eq_true, decide_eq_true_eq]
  omega

end Sys2Proof.Machine
end

