-- ==== Sys2Proof/Laws/Exec.lean ====
section
/-! SUPPORT. One equation per operation, `exec` of it as a next state given by the named operations, so that no later proof
unfolds `exec`; and what a lookup reads, in the terms of `41_lut_read.md` R111. -/

namespace Sys2Proof.Machine

/-! ### One equation per operation -/

theorem exec_phaseAdv (freq cv : Half) (s : State) : exec (.phaseAdv freq cv) s
    = .next (answer (.phase (advancePhase freq cv s).ph) (advancePhase freq cv s)) := rfl

theorem exec_rotAdv (i : Fin 4) (rm : Int) (s : State) : exec (.rotAdv i rm) s
    = .next (answer (.phase (advanceRot i rm s).rot[i]) (advanceRot i rm s)) := rfl

theorem exec_lutRead (t : SampleTable) (p : Phase) (s : State) : exec (.lutRead t p) s
    = .next { s with result := .sample (lutRead s.cfg t p) } := rfl

theorem exec_lutSin (p : Phase) (s : State) : exec (.lutSin p) s
    = .next { s with result := .sample (lutRead s.cfg .sin p) } := rfl

theorem exec_lutCos (p : Phase) (s : State) : exec (.lutCos p) s
    = .next { s with result := .sample (lutRead s.cfg .sin (p + 0x40000000#32)) } := rfl

theorem exec_growScale (p : Phase) (gm : Int) (s : State) : exec (.growScale p gm) s
    = .next { s with result := .phase (growScale s.cfg p gm) } := rfl

theorem exec_fnArc (gp : Phase) (s : State) : exec (.fnArc gp) s
    = .next { s with result := .pair (fnArc s.cfg gp) } := rfl

theorem exec_fnFlip (p : Phase) (x0 y0 : Int) (s : State) : exec (.fnFlip p x0 y0) s
    = .next { s with result := .pair (fnFlip s.cfg p ⟨x0, y0⟩) } := rfl

theorem exec_rot2d (x1 y1 : Int) (a : Phase) (s : State) : exec (.rot2d x1 y1 a) s
    = .next { s with result := .pair (rot2d s.cfg ⟨x1, y1⟩ a) } := rfl

theorem exec_shapeFn (s : State) : exec .shapeFn s
    = .next (answer (.pair (rawFn s.cfg s.ph s.mod1.toInt (advanceRot 0 s.mod2.toInt s).rot[(0 : Fin 4)]))
        (advanceRot 0 s.mod2.toInt s)) := rfl

theorem exec_pathInterp (j : Fin 3) (gp : Phase) (q : Pt3) (s : State) (h : pathInterp s.cfg j gp = some q) :
    exec (.pathInterp j gp) s = .next { s with result := .triple q } := by
  simp only [exec, execPathInterp, h, answer]

theorem exec_rot3dY (px py pz : Int) (a : Phase) (s : State) : exec (.rot3dY px py pz a) s
    = .next { s with result := .triple (rot3dY s.cfg ⟨px, py, pz⟩ a) } := rfl

theorem exec_isoProj (x y z : Int) (s : State) : exec (.isoProj x y z) s
    = .next { s with result := .pair (isoProj s.cfg ⟨x, y, z⟩) } := rfl

theorem exec_meshScale (h v : Int) (s : State) : exec (.meshScale h v) s
    = .next { s with result := .pair (meshScale s.cfg ⟨h, v⟩) } := rfl

theorem exec_shapeMesh (j : Fin 3) (q : Pt2) (s : State)
    (h : rawMesh s.cfg j s.ph s.mod1.toInt (advanceRot (meshRot j) s.mod2.toInt s).rot[meshRot j] = some q) :
    exec (.shapeMesh j) s = .next (answer (.pair q) (advanceRot (meshRot j) s.mod2.toInt s)) := by
  simp only [exec, execShapeMesh, shapeMesh, h]

theorem exec_wtFetch (j : Fin 3) (gp : Phase) (s : State) : exec (.wtFetch j gp) s
    = .next { s with result := .samples (wtFetch s.cfg j gp) } := rfl

theorem exec_morphMix (a b m : Int) (s : State) : exec (.morphMix a b m) s
    = .next { s with result := .sample (morphMix a b m) } := rfl

theorem exec_wtScale (mx my : Int) (s : State) : exec (.wtScale mx my) s
    = .next { s with result := .pair (wtScale s.cfg ⟨mx, my⟩) } := rfl

theorem exec_shapeWt (j : Fin 3) (s : State) : exec (.shapeWt j) s
    = .next { s with result := .pair (rawWt s.cfg j s.ph s.mod1.toInt s.mod2.toInt) } := rfl

theorem exec_modRouteAtt (a b c d e : Half) (s : State) : exec (.modRouteAtt a b c d e) s
    = .next (answer (routed (route .attenuate a b c d e s)) (route .attenuate a b c d e s)) := rfl

theorem exec_modRouteOfs (a b c d e : Half) (s : State) : exec (.modRouteOfs a b c d e) s
    = .next (answer (routed (route .offset a b c d e s)) (route .offset a b c d e s)) := rfl

theorem exec_modRouteOfs2 (a b c d e : Half) (s : State) : exec (.modRouteOfs2 a b c d e) s
    = .next (answer (routed (route .offset a b c d e s)) (route .offset a b c d e s)) := rfl

theorem exec_guardFreeze (a b : Half) (s : State) : exec (.guardFreeze a b) s
    = .next (answer .nothing (freeze a b s)) := rfl

theorem exec_guardRelease (a b : Half) (s : State) : exec (.guardRelease a b) s
    = .next (answer .nothing (release a b s)) := rfl

theorem exec_selAdvOsc (s : State) : exec .selAdvOsc s = selected (advOsc s) := rfl

theorem exec_selAdvBank (s : State) : exec .selAdvBank s = selected (advBank s) := rfl

theorem exec_selAdvSlot (s : State) : exec .selAdvSlot s = selected (advSlot s) := rfl

theorem exec_lpfStep (rx ry : Int) (s : State) : exec (.lpfStep rx ry) s
    = .next (answer (.pair ⟨(lpf ⟨rx, ry⟩ s).fx.toInt, (lpf ⟨rx, ry⟩ s).fy.toInt⟩) (lpf ⟨rx, ry⟩ s)) := rfl

theorem exec_tick (w : TickWord) (s : State) (h1 : s.started = true) (h2 : cfgWellFormed s.cfg = true) :
    exec (.tick w) s = tickSlots w s := by
  simp only [exec, execTick, h1, h2, Bool.not_true, Bool.false_eq_true, if_false]

theorem exec_reset (s : State) (h : cfgWellFormed s.cfg = true) : exec .reset s = .next (resetRegisters s) := by
  simp only [exec, execReset, h, Bool.not_true, Bool.false_eq_true, if_false]

/-! ### The lookups (R111, R113, R114) -/

theorem lutRead_of_entries (c : Cfg) (t : SampleTable) (p : Phase) :
    ∃ a b : Half, (sampleTable c t).toList[p.toNat / 2 ^ (32 - t.indexBits)]? = some a
      ∧ (sampleTable c t).toList[(p.toNat / 2 ^ (32 - t.indexBits) + 1) % 2 ^ t.indexBits]? = some b
      ∧ lutRead c t p = a.toInt
        + (b.toInt - a.toInt) * ((p.toNat % 2 ^ (32 - t.indexBits) : Nat) : Int) / 2 ^ (32 - t.indexBits) := by
  have h1 := readSample_mem c t (lutIndex t p)
  have h2 := readSample_mem c t (lutNext t (lutIndex t p))
  simp only [lutNext, lutIndex_val] at h1 h2
  refine ⟨_, _, h1, h2, ?_⟩
  simp only [lutRead, interpolate, asr_eq, readSample, lutWeight, lutNext, lutIndex_val]

theorem sampleTable_wt (c : Cfg) (j : Fin 3) (side : WtSide) (ch : WtChannel) :
    (sampleTable c (.wt j side ch)).toList = (channelTable c.wt[j] side ch).toList := by
  cases side <;> cases ch <;> rfl

/-- A lookup in the sine table, in the numbers of R113. -/
theorem lutRead_sin (c : Cfg) (p : Phase) :
    ∃ a b : Half, c.sin.toList[p.toNat / 8388608]? = some a
      ∧ c.sin.toList[(p.toNat / 8388608 + 1) % 512]? = some b
      ∧ lutRead c .sin p = a.toInt + (b.toInt - a.toInt) * ((p.toNat % 8388608 : Nat) : Int) / 8388608 := by
  have e1 : (2 : Nat) ^ (32 - SampleTable.sin.indexBits) = 8388608 := by decide
  have e2 : (2 : Int) ^ (32 - SampleTable.sin.indexBits) = 8388608 := by decide
  have e3 : (sampleTable c .sin).toList = c.sin.toList := rfl
  have e4 : (2 : Nat) ^ SampleTable.sin.indexBits = 512 := by decide
  obtain ⟨a, b, h1, h2, h3⟩ := lutRead_of_entries c .sin p
  rw [e3, e1] at h1 h2
  rw [e4] at h2
  rw [e1, e2] at h3
  exact ⟨a, b, h1, h2, h3⟩

/-- A lookup in a wavetable channel, in the numbers of R112. -/
theorem lutRead_wt (c : Cfg) (p : Phase) (j : Fin 3) (side : WtSide) (ch : WtChannel) :
    ∃ a b : Half, (channelTable c.wt[j] side ch).toList[p.toNat / 4194304]? = some a
      ∧ (channelTable c.wt[j] side ch).toList[(p.toNat / 4194304 + 1) % 1024]? = some b
      ∧ lutRead c (.wt j side ch) p
        = a.toInt + (b.toInt - a.toInt) * ((p.toNat % 4194304 : Nat) : Int) / 4194304 := by
  have e0 : (SampleTable.wt j side ch).indexBits = 10 := rfl
  have e1 : (2 : Nat) ^ (32 - (SampleTable.wt j side ch).indexBits) = 4194304 := by rw [e0]; decide
  have e2 : (2 : Int) ^ (32 - (SampleTable.wt j side ch).indexBits) = 4194304 := by rw [e0]; decide
  have e4 : (2 : Nat) ^ (SampleTable.wt j side ch).indexBits = 1024 := by rw [e0]; decide
  obtain ⟨a, b, h1, h2, h3⟩ := lutRead_of_entries c (.wt j side ch) p
  rw [sampleTable_wt, e1] at h1 h2
  rw [e4] at h2
  rw [e1, e2] at h3
  exact ⟨a, b, h1, h2, h3⟩

/-- A quarter cycle later, as numbers (R114). -/
theorem quarter_turn (p : Phase) : p + 0x40000000#32 = BitVec.ofNat 32 ((p.toNat + 1073741824) % 4294967296) := by
  apply BitVec.eq_of_toNat_eq
  rw [BitVec.toNat_add, BitVec.toNat_ofNat, BitVec.toNat_ofNat]
  omega

/-- One more of the weight moves a floored product by at most one, where the factor is at most the divisor (R115). -/
theorem floor_step (d w m : Int) (hm : 0 < m) (h1 : -m ≤ d) (h2 : d ≤ m) :
    d * (w + 1) / m - d * w / m ≤ 1 ∧ d * w / m - d * (w + 1) / m ≤ 1 := by
  have e1 : d * w / m - 1 = (d * w + (-1) * m) / m := by rw [Int.add_mul_ediv_right _ _ (by omega)]; omega
  have e2 : d * w / m + 1 = (d * w + 1 * m) / m := by rw [Int.add_mul_ediv_right _ _ (by omega)]
  have e3 : d * (w + 1) = d * w + d := by ring
  have h3 : (d * w + (-1) * m) / m ≤ d * (w + 1) / m := Int.ediv_le_ediv hm (by omega)
  have h4 : d * (w + 1) / m ≤ (d * w + 1 * m) / m := Int.ediv_le_ediv hm (by omega)
  omega

/-- The top bit of a phase (R125). -/
theorem phase_top_bit (p : Phase) : p.getLsbD 31 = decide (2147483648 ≤ p.toNat) := by
  have h := BitVec.msb_eq_decide p
  simpa [BitVec.msb_eq_getLsbD_last] using h

/-! ### Chained operations -/

@[simp] theorem andThen_next (s : State) (f : State → Host.Outcome State Fault Refusal) :
    andThen (.next s) f = f s := rfl

theorem andThen_eq_next (o : Host.Outcome State Fault Refusal) (f : State → Host.Outcome State Fault Refusal)
    (t : State) (h : andThen o f = .next t) : ∃ s : State, o = .next s ∧ f s = .next t := by
  cases o with
  | next s => exact ⟨s, rfl, h⟩
  | fault r => cases h
  | refused r => cases h

theorem andThen_assoc (o : Host.Outcome State Fault Refusal) (f g : State → Host.Outcome State Fault Refusal) :
    andThen (andThen o f) g = andThen o (fun s => andThen (f s) g) := by
  cases o <;> rfl

theorem runOps_append (l m : List Instr) (s : State) : runOps (l ++ m) s = andThen (runOps l s) (runOps m) := by
  induction l generalizing s with
  | nil => rfl
  | cons i l ih =>
    simp only [List.cons_append, runOps, andThen_assoc]
    congr 1; funext t; exact ih t

theorem runOps_singleton (i : Instr) (s : State) : runOps [i] s = exec i s := by
  simp only [runOps]; cases exec i s <;> rfl

end Sys2Proof.Machine
end

