-- ==== Sys2Proof/Laws/Route.lean ====
section
/-! SUPPORT. What the modulation router leaves in every register, once (`45_modulation_router.md` R162 to R166): later
proofs cite `route_eq` and unfold none of its parts. -/

namespace Sys2Proof.Machine

theorem movedPast_eq_false_iff (c : Cfg) (ctl ref : Half) :
    movedPast c ctl ref = false ↔ |ctl.toInt - ref.toInt| ≤ (c.deadband : Int) := by
  simp only [movedPast, decide_eq_false_iff_not]; rw [Int.abs_eq_natAbs]; omega

theorem movedPast_eq_true_iff (c : Cfg) (ctl ref : Half) :
    movedPast c ctl ref = true ↔ (c.deadband : Int) < |ctl.toInt - ref.toInt| := by
  simp only [movedPast, decide_eq_true_eq]; rw [Int.abs_eq_natAbs]; omega

theorem movedPast_self (c : Cfg) (ctl : Half) : movedPast c ctl ctl = false := by
  simp [movedPast]

/-- Whether channel 1 is guarded after the router has run. -/
def guarded1 (m : RouterMode) (ctl : Half) (s : State) : Bool :=
  modeChanged m s || (s.g1 && !movedPast s.cfg ctl s.ref1)

/-- Whether channel 2 is guarded after the router has run. -/
def guarded2 (m : RouterMode) (ctl : Half) (s : State) : Bool :=
  modeChanged m s || (s.g2 && !movedPast s.cfg ctl s.ref2)

/-- The state after the guard lines of the router. -/
theorem routeGuards_eq (m : RouterMode) (ctl1 ctl2 : Half) (s : State) :
    routeGuards m ctl1 ctl2 s = { s with
      mode := m
      modeV := true
      g1 := guarded1 m ctl1 s
      g2 := guarded2 m ctl2 s
      ref1 := if modeChanged m s then ctl1 else s.ref1
      ref2 := if modeChanged m s then ctl2 else s.ref2 } := by
  unfold routeGuards guarded1 guarded2
  cases h : modeChanged m s <;>
    simp [release, freeze, setMode, setGuards, setRefs, movedPast_self]

/-- The state after the router (R162). -/
theorem route_eq (m : RouterMode) (ctl1 ctl2 cv1 aud1 aud2 : Half) (s : State) :
    route m ctl1 ctl2 cv1 aud1 aud2 s = { s with
      mode := m
      modeV := true
      g1 := guarded1 m ctl1 s
      g2 := guarded2 m ctl2 s
      ref1 := if modeChanged m s then ctl1 else s.ref1
      ref2 := if modeChanged m s then ctl2 else s.ref2
      mod1 := if guarded1 m ctl1 s then s.mod1 else cut32 (modFormula s.cfg m ctl1 aud1)
      mod2 := if guarded2 m ctl2 s then s.mod2 else cut32 (modFormula s.cfg m ctl2 aud2) } := by
  unfold route
  rw [routeGuards_eq]
  cases h1 : guarded1 m ctl1 s <;> cases h2 : guarded2 m ctl2 s <;>
    simp [routeChannel1, routeChannel2, setMod1, setMod2]

/-- A change is a recorded mode that differs (R162, R165). -/
theorem modeChanged_eq_true_iff (m : RouterMode) (s : State) :
    modeChanged m s = true ↔ s.modeV = true ∧ s.mode ≠ m := by
  simp [modeChanged]

/-- The operation of a mode, both router rows of offset mode alike. -/
theorem exec_routeInstr (m : RouterMode) (x : RouteInput) (s : State) :
    exec (routeInstr m x) s = .next (answer (routed (route m x.ctl1 x.ctl2 0#16 x.aud1 x.aud2 s))
      (route m x.ctl1 x.ctl2 0#16 x.aud1 x.aud2 s)) := by
  cases m <;> rfl

end Sys2Proof.Machine
end

