-- ==== Sys2Proof/Laws/Layout.lean ====
section
/-! SUPPORT. What a well-formed configuration gives (`48_tick.md` R195, `00_scope.md` R8): points on every path, 1 to 16
banks of 1 to 16 slots, legal descriptors; and what the selector operations do under it (`46_selector.md` R171 to R174). -/

namespace Sys2Proof.Machine

theorem cfgWellFormed_structure (c : Cfg) (h : cfgWellFormed c = true) : structureOk c = true := by
  simp only [cfgWellFormed, Bool.and_eq_true] at h; exact h.1

theorem structureOk_pathLen (c : Cfg) (h : structureOk c = true) (j : Fin 3) : 1 ≤ pathLen c j := by
  simp only [structureOk, countIn, Bool.and_eq_true, decide_eq_true_eq] at h
  fin_cases j
  · exact h.1.1.1.1.1.1.1.1.2.1
  · exact h.1.1.1.1.1.1.1.2.1
  · exact h.1.1.1.1.1.1.2.1

theorem structureOk_bankCount (c : Cfg) (h : structureOk c = true) : 1 ≤ bankCount c ∧ bankCount c ≤ 16 := by
  simp only [structureOk, countIn, Bool.and_eq_true, decide_eq_true_eq] at h
  exact h.1.1.2

theorem structureOk_bank (c : Cfg) (h : structureOk c = true) (l : List DescBits) (hl : l ∈ c.gdesc) :
    1 ≤ l.length ∧ l.length ≤ 16 ∧ ∀ d ∈ l, legalDesc d = true := by
  simp only [structureOk, countIn, Bool.and_eq_true, decide_eq_true_eq, List.all_eq_true] at h
  obtain ⟨⟨h1, h2⟩, h3⟩ := h.1.2 l hl
  exact ⟨h1, h2, h3⟩

theorem structureOk_firstDesc (c : Cfg) (h : structureOk c = true) : readDesc c 0 0 = some 0x00#8 := by
  simp only [structureOk, Bool.and_eq_true, beq_iff_eq] at h
  exact h.2

theorem structureOk_lpf (c : Cfg) (h : structureOk c = true) : 0 < c.lpfCoef ∧ c.lpfCoef ≤ 2 ^ c.lpfShift.val := by
  simp only [structureOk, Bool.and_eq_true, decide_eq_true_eq] at h
  exact ⟨h.1.1.1.1.2, h.1.1.1.2⟩

theorem structureOk_slotCount (c : Cfg) (h : structureOk c = true) (b n : Nat) (hn : slotCount c b = some n) :
    b < bankCount c ∧ 1 ≤ n ∧ n ≤ 16 := by
  simp only [slotCount, Option.map_eq_some_iff] at hn
  obtain ⟨l, hl, rfl⟩ := hn
  obtain ⟨hb, rfl⟩ := List.getElem?_eq_some_iff.mp hl
  have := structureOk_bank c h _ (List.getElem_mem hb)
  exact ⟨hb, this.1, this.2.1⟩

theorem slotCount_of_lt (c : Cfg) (b : Nat) (h : b < bankCount c) : ∃ n, slotCount c b = some n :=
  ⟨(c.gdesc[b]'h).length, by simp only [slotCount, List.getElem?_eq_getElem h, Option.map_some]⟩

theorem selectorInRange_iff (s : State) :
    selectorInRange s = true ↔ ∃ n, slotCount s.cfg s.bank.toNat = some n ∧ s.slot.toNat < n := by
  unfold selectorInRange
  cases slotCount s.cfg s.bank.toNat <;> simp

/-- With the selector in range the descriptor exists and names a generator (R29, R80, R82). -/
theorem exists_generator (s : State) (h : structureOk s.cfg = true) (hs : selectorInRange s = true) :
    ∃ (d : DescBits) (g : Generator), readDesc s.cfg s.bank.toNat s.slot.toNat = some d ∧ decodeDesc d = .ok g := by
  obtain ⟨n, hn, hk⟩ := (selectorInRange_iff s).mp hs
  simp only [slotCount, Option.map_eq_some_iff] at hn
  obtain ⟨l, hl, rfl⟩ := hn
  have hd : readDesc s.cfg s.bank.toNat s.slot.toNat = some l[s.slot.toNat] := by
    simp only [readDesc, hl, Option.bind_some, List.getElem?_eq_getElem hk]
  have hm : l ∈ s.cfg.gdesc := List.mem_of_getElem? hl
  have hL := (structureOk_bank _ h l hm).2.2 _ (List.getElem_mem hk)
  unfold legalDesc at hL
  cases hg : decodeDesc l[s.slot.toNat] with
  | ok g => exact ⟨_, g, hd, hg⟩
  | error e => rw [hg] at hL; simp at hL

theorem nextBank_toNat (s : State) (h : structureOk s.cfg = true) :
    (nextBank s).toNat = (s.bank.toNat + 1) % bankCount s.cfg := by
  have hb := structureOk_bankCount _ h
  have := Nat.mod_lt (s.bank.toNat + 1) (show 0 < bankCount s.cfg by omega)
  simp only [nextBank, BitVec.toNat_ofNat]; omega

theorem nextBank_lt (s : State) (h : structureOk s.cfg = true) : (nextBank s).toNat < bankCount s.cfg := by
  rw [nextBank_toNat s h]
  exact Nat.mod_lt _ (by have := structureOk_bankCount _ h; omega)

/-- `SEL.ADVOSC` with the selector in range: the next slot, or the next bank's first one (R172). -/
theorem advOsc_of_inRange (s : State) (n : Nat) (h : structureOk s.cfg = true)
    (hn : slotCount s.cfg s.bank.toNat = some n) (hk : s.slot.toNat < n) :
    (s.slot.toNat + 1 = n ∧ advOsc s = some (setSelector (nextBank s) 0#4 s))
    ∨ (s.slot.toNat + 1 < n ∧ (s.slot + 1#4).toNat = s.slot.toNat + 1
        ∧ advOsc s = some (setSelector s.bank (s.slot + 1#4) s)) := by
  have h16 := (structureOk_slotCount _ h _ _ hn).2.2
  unfold advOsc
  rw [hn]
  by_cases he : s.slot.toNat + 1 = n
  · left; exact ⟨he, by simp [he]⟩
  · right
    refine ⟨by omega, ?_, by simp [he]⟩
    rw [BitVec.toNat_add]; simp; omega

/-- `SEL.ADVBANK` (R173). -/
theorem advBank_of_wellFormed (s : State) (h : structureOk s.cfg = true) :
    advBank s = some (setSelector (nextBank s) 0#4 s) := by
  have := structureOk_bankCount _ h
  simp only [advBank]; rw [if_neg (by omega)]

/-- `SEL.ADVSLOT` (R174). -/
theorem advSlot_of_bank (s : State) (n : Nat) (h : structureOk s.cfg = true)
    (hn : slotCount s.cfg s.bank.toNat = some n) :
    advSlot s = some (setSelector s.bank (BitVec.ofNat 4 ((s.slot.toNat + 1) % n)) s)
    ∧ (BitVec.ofNat 4 ((s.slot.toNat + 1) % n)).toNat = (s.slot.toNat + 1) % n := by
  have h16 := structureOk_slotCount _ h _ _ hn
  have := Nat.mod_lt (s.slot.toNat + 1) (show 0 < n by omega)
  unfold advSlot
  rw [hn]
  refine ⟨by simp only; rw [if_neg (by omega)], ?_⟩
  simp only [BitVec.toNat_ofNat]; omega

/-- A selector at the first slot of a bank that exists is in range. -/
theorem selectorInRange_first (s : State) (b : BitVec 4) (h : structureOk s.cfg = true)
    (hb : b.toNat < bankCount s.cfg) : selectorInRange (setSelector b 0#4 s) = true := by
  obtain ⟨n, hn⟩ := slotCount_of_lt s.cfg b.toNat hb
  have := structureOk_slotCount _ h _ _ hn
  exact (selectorInRange_iff _).mpr ⟨n, hn, by simp; omega⟩

theorem selected_eq_next (o : Option State) (t : State) (h : selected o = .next t) :
    ∃ u, o = some u ∧ t = answer .nothing u := by
  cases o with
  | none => simp [selected] at h
  | some u => simp only [selected, Host.Outcome.next.injEq] at h; exact ⟨u, rfl, h.symm⟩

/-- With the selector in range each selector operation goes on, changes only the selector, and keeps it in range (R29). -/
theorem advOsc_inRange (s : State) (h : structureOk s.cfg = true) (hs : selectorInRange s = true) :
    ∃ b k, advOsc s = some (setSelector b k s) ∧ selectorInRange (setSelector b k s) = true := by
  obtain ⟨n, hn, hk⟩ := (selectorInRange_iff s).mp hs
  rcases advOsc_of_inRange s n h hn hk with ⟨_, e⟩ | ⟨hlt, hv, e⟩
  · exact ⟨_, _, e, selectorInRange_first s _ h (nextBank_lt s h)⟩
  · exact ⟨_, _, e, (selectorInRange_iff _).mpr ⟨n, hn, by rw [setSelector_slot, hv]; exact hlt⟩⟩

theorem advBank_inRange (s : State) (h : structureOk s.cfg = true) :
    ∃ b k, advBank s = some (setSelector b k s) ∧ selectorInRange (setSelector b k s) = true :=
  ⟨_, _, advBank_of_wellFormed s h, selectorInRange_first s _ h (nextBank_lt s h)⟩

theorem advSlot_inRange (s : State) (h : structureOk s.cfg = true) (hs : selectorInRange s = true) :
    ∃ b k, advSlot s = some (setSelector b k s) ∧ selectorInRange (setSelector b k s) = true := by
  obtain ⟨n, hn, hk⟩ := (selectorInRange_iff s).mp hs
  obtain ⟨e, hv⟩ := advSlot_of_bank s n h hn
  refine ⟨_, _, e, (selectorInRange_iff _).mpr ⟨n, hn, ?_⟩⟩
  rw [setSelector_slot, hv]
  exact Nat.mod_lt _ (by omega)

end Sys2Proof.Machine
end

