-- ==== Sys2Proof/Laws/PerInstr.lean ====
section
/-! SUPPORT. Statements made for all operations, one lemma per constructor. The family `Opid`: an operation's identifier and
its mnemonic stand in one row of the table of `30_encoding.md` R77. -/

namespace Sys2Proof.Laws.Opid

open Sys2Proof

/-- The table of R77: `OPID` and mnemonic. -/
def table : List (BitVec 8 × String) :=
  [(0x01#8, "PHASE.ADV"), (0x02#8, "ROT.ADV"), (0x10#8, "LUT.READ"), (0x11#8, "LUT.SIN"), (0x12#8, "LUT.COS")]
    ++ [(0x20#8, "GROW.SCALE"), (0x21#8, "FN.ARC"), (0x22#8, "FN.FLIP"), (0x23#8, "ROT2D"), (0x24#8, "SHAPE.FN")]
    ++ [(0x30#8, "PATH.INTERP"), (0x31#8, "ROT3D.Y"), (0x32#8, "ISO.PROJ"), (0x33#8, "MESH.SCALE"), (0x34#8, "SHAPE.MESH")]
    ++ [(0x40#8, "WT.FETCH"), (0x41#8, "MORPH.MIX"), (0x42#8, "WT.SCALE"), (0x43#8, "SHAPE.WT"), (0x50#8, "MOD.ROUTE.ATT")]
    ++ [(0x51#8, "MOD.ROUTE.OFS"), (0x52#8, "GUARD.FREEZE"), (0x53#8, "GUARD.RELEASE"), (0x60#8, "SEL.ADVOSC"), (0x61#8, "SEL.ADVBANK")]
    ++ [(0x62#8, "SEL.ADVSLOT"), (0x70#8, "LPF.STEP"), (0x7E#8, "TICK"), (0x7F#8, "RESET")]

/-- The operation's identifier and mnemonic are a row of R77. -/
def Statement (i : Instr) : Prop :=
  (opid i, mnemonic i) ∈ table

theorem member (i : Instr) (h : (opid i, mnemonic i) ∈ table) : Statement i := h

theorem phaseAdv : ∀ x0 x1, Statement (.phaseAdv x0 x1) := fun _ _ => member _ (by simp only [opid, mnemonic]; decide)
theorem rotAdv : ∀ x0 x1, Statement (.rotAdv x0 x1) := fun _ _ => member _ (by simp only [opid, mnemonic]; decide)
theorem lutRead : ∀ x0 x1, Statement (.lutRead x0 x1) := fun _ _ => member _ (by simp only [opid, mnemonic]; decide)
theorem lutSin : ∀ x0, Statement (.lutSin x0) := fun _ => member _ (by simp only [opid, mnemonic]; decide)
theorem lutCos : ∀ x0, Statement (.lutCos x0) := fun _ => member _ (by simp only [opid, mnemonic]; decide)
theorem growScale : ∀ x0 x1, Statement (.growScale x0 x1) := fun _ _ => member _ (by simp only [opid, mnemonic]; decide)
theorem fnArc : ∀ x0, Statement (.fnArc x0) := fun _ => member _ (by simp only [opid, mnemonic]; decide)
theorem fnFlip : ∀ x0 x1 x2, Statement (.fnFlip x0 x1 x2) := fun _ _ _ => member _ (by simp only [opid, mnemonic]; decide)
theorem rot2d : ∀ x0 x1 x2, Statement (.rot2d x0 x1 x2) := fun _ _ _ => member _ (by simp only [opid, mnemonic]; decide)
theorem shapeFn : Statement .shapeFn := member _ (by simp only [opid, mnemonic]; decide)
theorem pathInterp : ∀ x0 x1, Statement (.pathInterp x0 x1) := fun _ _ => member _ (by simp only [opid, mnemonic]; decide)
theorem rot3dY : ∀ x0 x1 x2 x3, Statement (.rot3dY x0 x1 x2 x3) := fun _ _ _ _ => member _ (by simp only [opid, mnemonic]; decide)
theorem isoProj : ∀ x0 x1 x2, Statement (.isoProj x0 x1 x2) := fun _ _ _ => member _ (by simp only [opid, mnemonic]; decide)
theorem meshScale : ∀ x0 x1, Statement (.meshScale x0 x1) := fun _ _ => member _ (by simp only [opid, mnemonic]; decide)
theorem shapeMesh : ∀ x0, Statement (.shapeMesh x0) := fun _ => member _ (by simp only [opid, mnemonic]; decide)
theorem wtFetch : ∀ x0 x1, Statement (.wtFetch x0 x1) := fun _ _ => member _ (by simp only [opid, mnemonic]; decide)
theorem morphMix : ∀ x0 x1 x2, Statement (.morphMix x0 x1 x2) := fun _ _ _ => member _ (by simp only [opid, mnemonic]; decide)
theorem wtScale : ∀ x0 x1, Statement (.wtScale x0 x1) := fun _ _ => member _ (by simp only [opid, mnemonic]; decide)
theorem shapeWt : ∀ x0, Statement (.shapeWt x0) := fun _ => member _ (by simp only [opid, mnemonic]; decide)
theorem modRouteAtt : ∀ x0 x1 x2 x3 x4, Statement (.modRouteAtt x0 x1 x2 x3 x4) := fun _ _ _ _ _ => member _ (by simp only [opid, mnemonic]; decide)
theorem modRouteOfs : ∀ x0 x1 x2 x3 x4, Statement (.modRouteOfs x0 x1 x2 x3 x4) := fun _ _ _ _ _ => member _ (by simp only [opid, mnemonic]; decide)
theorem modRouteOfs2 : ∀ x0 x1 x2 x3 x4, Statement (.modRouteOfs2 x0 x1 x2 x3 x4) := fun _ _ _ _ _ => member _ (by simp only [opid, mnemonic]; decide)
theorem guardFreeze : ∀ x0 x1, Statement (.guardFreeze x0 x1) := fun _ _ => member _ (by simp only [opid, mnemonic]; decide)
theorem guardRelease : ∀ x0 x1, Statement (.guardRelease x0 x1) := fun _ _ => member _ (by simp only [opid, mnemonic]; decide)
theorem selAdvOsc : Statement .selAdvOsc := member _ (by simp only [opid, mnemonic]; decide)
theorem selAdvBank : Statement .selAdvBank := member _ (by simp only [opid, mnemonic]; decide)
theorem selAdvSlot : Statement .selAdvSlot := member _ (by simp only [opid, mnemonic]; decide)
theorem lpfStep : ∀ x0 x1, Statement (.lpfStep x0 x1) := fun _ _ => member _ (by simp only [opid, mnemonic]; decide)
theorem tick : ∀ x0, Statement (.tick x0) := fun _ => member _ (by simp only [opid, mnemonic]; decide)
theorem reset : Statement .reset := member _ (by simp only [opid, mnemonic]; decide)

end Sys2Proof.Laws.Opid
end

