-- ==== Sys2Proof/Laws/Tick.lean ====
section
/-! SUPPORT. A tick taken apart (`48_tick.md` R190): the state after slots P, M and S, the generator that runs, and the state
after slot F, each under the name the later proofs cite; and a step taken apart into its event and its operation. -/

namespace Sys2Proof.Machine

/-! ### Slots P, M and S -/

theorem routeSlot_eq (w : TickWord) (s : State) : routeSlot w s
    = .next (answer (routed (route (switchMode w.sw) w.ctl1 w.ctl2 0#16 w.aud1 w.aud2 s))
      (route (switchMode w.sw) w.ctl1 w.ctl2 0#16 w.aud1 w.aud2 s)) := by
  unfold routeSlot
  cases w.sw <;> rfl

theorem routeSlot_exec (w : TickWord) (s : State) : routeSlot w s = exec (routeOp w) s := by
  unfold routeSlot routeOp
  cases w.sw <;> rfl

theorem onTrigger_runOps (b : Bool) (i : Instr) (s : State) :
    onTrigger b (exec i) s = runOps (if b = true then [i] else []) s := by
  cases b
  · rfl
  · simp only [onTrigger, if_true, runOps_singleton]

/-- Slot S is the triggered selector operations in their order (R175). -/
theorem selectorSlot_runOps (w : TickWord) (s : State) : selectorSlot w s
    = runOps ((if w.trigOsc = true then [.selAdvOsc] else []) ++ (if w.trigBank = true then [.selAdvBank] else [])
        ++ (if w.trigSlot = true then [.selAdvSlot] else [])) s := by
  rw [runOps_append, runOps_append, ← onTrigger_runOps, andThen_assoc]
  unfold selectorSlot
  congr 1; funext s1
  rw [← onTrigger_runOps]
  congr 1; funext s2
  rw [← onTrigger_runOps]; rfl

/-- A tick is the operations its word selects, then the generator and the filter (R76). -/
theorem tickSlots_runOps (w : TickWord) (s : State) :
    tickSlots w s = andThen (runOps (tickOps w) s) generateAndFilter := by
  have e : runOps (tickOps w) s = andThen (exec (.phaseAdv w.freq w.cv) s) fun s1 =>
      andThen (exec (routeOp w) s1) (selectorSlot w) := by
    simp only [tickOps, List.cons_append, List.nil_append, runOps]
    congr 1; funext s1
    congr 1; funext s2
    rw [selectorSlot_runOps]
  rw [e, andThen_assoc]
  unfold tickSlots
  congr 1; funext s1
  rw [andThen_assoc, routeSlot_exec]

/-- The triggered selector operations go on, change only the selector, and keep it in range (R29). -/
theorem selectorSlot_inRange (w : TickWord) (s : State) (h : structureOk s.cfg = true)
    (hs : selectorInRange s = true) :
    ∃ b k r, selectorSlot w s = .next (answer r (setSelector b k s))
      ∧ selectorInRange (setSelector b k s) = true := by
  have one (bit : Bool) (op : State → Option State) (s : State) (h : structureOk s.cfg = true)
      (hs : selectorInRange s = true)
      (hop : ∃ b k, op s = some (setSelector b k s) ∧ selectorInRange (setSelector b k s) = true) :
      ∃ b k r, onTrigger bit (fun s => selected (op s)) s = .next (answer r (setSelector b k s))
        ∧ selectorInRange (setSelector b k s) = true := by
    cases bit with
    | false => exact ⟨s.bank, s.slot, s.result, rfl, hs⟩
    | true =>
      obtain ⟨b, k, e, hr⟩ := hop
      exact ⟨b, k, .nothing, by simp only [onTrigger, if_true, e, selected], hr⟩
  have clean (b k : BitVec 4) (r : OpResult) (s : State) (h : selectorInRange (setSelector b k s) = true) :
      selectorInRange (answer r (setSelector b k s)) = true := h
  obtain ⟨b1, k1, r1, e1, h1⟩ := one w.trigOsc advOsc s h hs (advOsc_inRange s h hs)
  obtain ⟨b2, k2, r2, e2, h2⟩ := one w.trigBank advBank (answer r1 (setSelector b1 k1 s)) h (clean _ _ _ _ h1)
    (advBank_inRange _ h)
  simp only [setSelector_answer, setSelector_setSelector, answer_answer] at e2 h2
  obtain ⟨b3, k3, r3, e3, h3⟩ := one w.trigSlot advSlot (answer r2 (setSelector b2 k2 s)) h
    (clean _ _ _ _ h2) (advSlot_inRange _ h (clean _ _ _ _ h2))
  simp only [setSelector_answer, setSelector_setSelector, answer_answer] at e3 h3
  have e1' : onTrigger w.trigOsc execSelAdvOsc s = .next (answer r1 (setSelector b1 k1 s)) := e1
  have e2' : onTrigger w.trigBank execSelAdvBank (answer r1 (setSelector b1 k1 s))
      = .next (answer r2 (setSelector b2 k2 s)) := e2
  have e3' : onTrigger w.trigSlot execSelAdvSlot (answer r2 (setSelector b2 k2 s))
      = .next (answer r3 (setSelector b3 k3 s)) := e3
  exact ⟨b3, k3, r3, by simp only [selectorSlot, e1', andThen_next, e2', e3'], h3⟩

/-- The registers after slots P, M and S, the triggered selection being `b`, `k`. -/
def beforeShape (w : TickWord) (b k : BitVec 4) (s : State) : State :=
  setSelector b k (route (switchMode w.sw) w.ctl1 w.ctl2 0#16 w.aud1 w.aud2 (advancePhase w.freq w.cv s))

/-- Slots P, M and S of a tick with the selector in range (R76). -/
theorem tickOps_inRange (w : TickWord) (s : State) (h : structureOk s.cfg = true) (hs : selectorInRange s = true) :
    ∃ b k r, runOps (tickOps w) s = .next (answer r (beforeShape w b k s))
      ∧ selectorInRange (beforeShape w b k s) = true := by
  have e : runOps (tickOps w) s = andThen (exec (.phaseAdv w.freq w.cv) s) fun s1 =>
      andThen (exec (routeOp w) s1) (selectorSlot w) := by
    simp only [tickOps, List.cons_append, List.nil_append, runOps]
    congr 1; funext s1
    congr 1; funext s2
    rw [selectorSlot_runOps]
  simp only [e, exec_phaseAdv, andThen_next, ← routeSlot_exec, routeSlot_eq]
  have ha (r : OpResult) (m : RouterMode) (c1 c2 v a1 a2 : Half) (u : State) :
      route m c1 c2 v a1 a2 (answer r u) = answer r (route m c1 c2 v a1 a2 u) := by
    rw [route_eq, route_eq]; rfl
  rw [ha]
  have hc : (route (switchMode w.sw) w.ctl1 w.ctl2 0#16 w.aud1 w.aud2 (advancePhase w.freq w.cv s)).cfg = s.cfg := by
    rw [route_eq]; rfl
  have hr : selectorInRange (route (switchMode w.sw) w.ctl1 w.ctl2 0#16 w.aud1 w.aud2 (advancePhase w.freq w.cv s))
      = true := by
    rw [route_eq]; exact hs
  unfold beforeShape
  generalize route (switchMode w.sw) w.ctl1 w.ctl2 0#16 w.aud1 w.aud2 (advancePhase w.freq w.cv s) = u at hc hr ⊢
  simp only [answer_answer]
  have clean (r : OpResult) : structureOk (answer r u).cfg = true ∧ selectorInRange (answer r u) = true :=
    ⟨by rw [answer_cfg, hc]; exact h, hr⟩
  obtain ⟨b, k, r, e2, h2⟩ := selectorSlot_inRange w _ (clean _).1 (clean _).2
  simp only [setSelector_answer, answer_answer] at e2 h2
  exact ⟨b, k, r, e2, h2⟩

/-! ### Slot G -/

/-- The generator's own register update and raw pair, as one function of the generator (R120). -/
def generated (g : Generator) (s : State) : Option (State × Pt2) :=
  match g with
  | .fn => some (shapeFn s)
  | .mesh j => shapeMesh j s
  | .wt j => some (s, rawWt s.cfg j s.ph s.mod1.toInt s.mod2.toInt)

theorem withGenerator_eq (s : State) (d : DescBits) (g : Generator) (k : State → Pt2 → Host.Outcome State Fault Refusal)
    (hd : readDesc s.cfg s.bank.toNat s.slot.toNat = some d) (hg : decodeDesc d = .ok g) (r : State × Pt2)
    (hr : generated g s = some r) : withGenerator s k = k r.1 r.2 := by
  simp only [withGenerator, hd, hg]
  cases g with
  | fn => simp only [generated, Option.some.injEq] at hr; rw [hr]
  | mesh j => simp only [generated] at hr; simp only [hr]
  | wt j => simp only [generated, Option.some.injEq] at hr; rw [← hr]

theorem generated_exec (s : State) (g : Generator) (r : State × Pt2) (hr : generated g s = some r) :
    exec (generatorOp g) s = .next (answer (.pair r.2) r.1) := by
  cases g with
  | fn => simp only [generated, Option.some.injEq] at hr; rw [← hr]; rfl
  | mesh j => simp only [generated] at hr; simp only [generatorOp, exec, execShapeMesh, hr]
  | wt j => simp only [generated, Option.some.injEq] at hr; rw [← hr]; rfl

/-- On a path with a point the mesh generator gives a pair. -/
theorem rawMesh_of_points (c : Cfg) (j : Fin 3) (p : Phase) (gm : Int) (a : Phase) (h : 1 ≤ pathLen c j) :
    ∃ q, rawMesh c j p gm a = some q := by
  obtain ⟨x, y, _, _, h3⟩ := pathInterp_of_points c j (growScale c p gm) h
  simp only [rawMesh, h3]
  exact ⟨_, rfl⟩

/-- A generator goes on under a well-formed configuration, and moves at most its own rotation phase. -/
theorem generated_of_wellFormed (s : State) (g : Generator) (h : structureOk s.cfg = true) :
    ∃ q, generated g s = some (match g with
      | .fn => (advanceRot 0 s.mod2.toInt s, q)
      | .mesh j => (advanceRot (meshRot j) s.mod2.toInt s, q)
      | .wt _ => (s, q)) := by
  cases g with
  | fn => exact ⟨_, rfl⟩
  | mesh j =>
    obtain ⟨q, hq⟩ := rawMesh_of_points s.cfg j s.ph s.mod1.toInt (advanceRot (meshRot j) s.mod2.toInt s).rot[meshRot j]
      (structureOk_pathLen _ h j)
    exact ⟨q, by simp only [generated, shapeMesh, hq]⟩
  | wt j => exact ⟨_, rfl⟩

/-- What a generator leaves alone: everything but the rotation phases and the result (R121). -/
theorem generated_frame (g : Generator) (s : State) (r : State × Pt2) (h : generated g s = some r) :
    r.1 = { s with rot := r.1.rot } := by
  cases g with
  | fn => simp only [generated, Option.some.injEq] at h; rw [← h]; rfl
  | wt j => simp only [generated, Option.some.injEq] at h; rw [← h]
  | mesh j =>
    simp only [generated, shapeMesh] at h
    split at h
    · simp only [Option.some.injEq] at h; rw [← h]; rfl
    · cases h

/-- The rotation phase that `ROT.ADV` leaves, in the numbers of R104. -/
theorem advanceRot_toNat (i : Fin 4) (rm : Int) (s : State) :
    ((advanceRot i rm s).rot[i].toNat : Int)
      = ((s.rot[i].toNat : Int) + (max 0 (min rm 4096) - 2048) * (s.cfg.rotGain.toNat : Int)) % 4294967296 := by
  have h := cut32_toNat ((rotValue rm - 2048) * (s.cfg.rotGain.toNat : Int))
  simp only [advanceRot, setRot_rot_self, BitVec.toNat_add, rotDelta]
  rw [← rotValue_eq]
  push_cast
  rw [h]
  simp

theorem advanceRot_other (i k : Fin 4) (rm : Int) (s : State) (h : i ≠ k) :
    (advanceRot i rm s).rot[k] = s.rot[k] :=
  setRot_rot_other _ _ _ _ h

@[simp] theorem beforeShape_cfg (w : TickWord) (b k : BitVec 4) (s : State) : (beforeShape w b k s).cfg = s.cfg := by
  simp [beforeShape, route_eq, advancePhase]

@[simp] theorem beforeShape_ph (w : TickWord) (b k : BitVec 4) (s : State) :
    (beforeShape w b k s).ph = s.ph + readInc s.cfg (incIndex w.freq w.cv) := by
  simp [beforeShape, route_eq, advancePhase]

@[simp] theorem beforeShape_rot (w : TickWord) (b k : BitVec 4) (s : State) : (beforeShape w b k s).rot = s.rot := by
  simp [beforeShape, route_eq, advancePhase]

@[simp] theorem beforeShape_bank (w : TickWord) (b k : BitVec 4) (s : State) : (beforeShape w b k s).bank = b := rfl

@[simp] theorem beforeShape_slot (w : TickWord) (b k : BitVec 4) (s : State) : (beforeShape w b k s).slot = k := rfl

@[simp] theorem beforeShape_fx (w : TickWord) (b k : BitVec 4) (s : State) : (beforeShape w b k s).fx = s.fx := by
  simp [beforeShape, route_eq, advancePhase]

@[simp] theorem beforeShape_fy (w : TickWord) (b k : BitVec 4) (s : State) : (beforeShape w b k s).fy = s.fy := by
  simp [beforeShape, route_eq, advancePhase]

/-! ### The whole tick -/

/-- A tick under a well-formed configuration, with the selector in range: slots P, M and S, the generator, the filter. -/
theorem exec_tick_of_inRange (w : TickWord) (s : State) (h1 : s.started = true) (h2 : cfgWellFormed s.cfg = true)
    (h3 : selectorInRange s = true) :
    ∃ (b k : BitVec 4) (r0 : OpResult) (d : DescBits) (g : Generator) (r : State × Pt2),
      runOps (tickOps w) s = .next (answer r0 (beforeShape w b k s))
      ∧ selectorInRange (beforeShape w b k s) = true
      ∧ readDesc s.cfg b.toNat k.toNat = some d ∧ decodeDesc d = .ok g
      ∧ generated g (answer r0 (beforeShape w b k s)) = some r
      ∧ exec (.tick w) s = .next (answer (.outWord (outputWord (lpf r.2 r.1))) (lpf r.2 r.1)) := by
  have hst := cfgWellFormed_structure _ h2
  obtain ⟨b, k, r0, e, hr⟩ := tickOps_inRange w s hst h3
  have hc : (beforeShape w b k s).cfg = s.cfg := by unfold beforeShape; rw [route_eq]; rfl
  obtain ⟨d, g, hd, hg⟩ := exists_generator (beforeShape w b k s) (by rw [hc]; exact hst) hr
  rw [hc] at hd
  obtain ⟨q, hq⟩ := generated_of_wellFormed (answer r0 (beforeShape w b k s)) g (by rw [answer_cfg, hc]; exact hst)
  refine ⟨b, k, r0, d, g, _, e, hr, hd, hg, hq, ?_⟩
  rw [exec_tick w s h1 h2, tickSlots_runOps, e, andThen_next, generateAndFilter]
  refine withGenerator_eq _ d g _ ?_ hg _ hq
  rw [answer_cfg, hc]; exact hd

/-- A next state of a tick comes only from a state a `RESET` was given to, under a well-formed configuration (R203). -/
theorem exec_tick_next (w : TickWord) (s u : State) (h : exec (.tick w) s = .next u) :
    s.started = true ∧ cfgWellFormed s.cfg = true := by
  simp only [exec, execTick] at h
  cases h1 : s.started <;> cases h2 : cfgWellFormed s.cfg <;> simp_all

/-! ### The step -/

theorem step_tick (s : State) (w : TickBits) (t : TickWord) (rest : List HostEvent)
    (h : s.pending = .tick w :: rest) (hd : decodeTick w = .ok t) : step s = exec (.tick t) (setPending rest s) := by
  simp only [step, takeEvent, h, decodeEvent, hd]

theorem step_reset (s : State) (rest : List HostEvent) (h : s.pending = .reset :: rest) :
    step s = exec .reset (setPending rest s) := by
  simp only [step, takeEvent, h, decodeEvent]

theorem step_idle (s : State) (h : s.pending = []) : step s = .next s := by
  simp only [step, takeEvent, h]

theorem step_illFormed (s : State) (w : TickBits) (e : DecodeError) (rest : List HostEvent)
    (h : s.pending = .tick w :: rest) (hd : decodeTick w = .error e) : ∃ r : Refusal, step s = .refused r := by
  simp only [step, takeEvent, h, decodeEvent, hd]
  cases e <;> exact ⟨_, rfl⟩

/-- Every next state of a step is the idle state, or comes from `RESET` or a tick on the state without its event. -/
theorem step_next (s t : State) (h : step s = .next t) :
    t = s ∨ (∃ rest, exec .reset (setPending rest s) = .next t)
      ∨ ∃ (w : TickWord) (rest : List HostEvent), exec (.tick w) (setPending rest s) = .next t := by
  match hp : s.pending with
  | [] => rw [step_idle s hp, Host.Outcome.next.injEq] at h; exact .inl h.symm
  | .reset :: rest => rw [step_reset s rest hp] at h; exact .inr (.inl ⟨rest, h⟩)
  | .tick w :: rest =>
    match hd : decodeTick w with
    | .ok u => rw [step_tick s w u rest hp hd] at h; exact .inr (.inr ⟨u, rest, h⟩)
    | .error e =>
      obtain ⟨r, hr⟩ := step_illFormed s w e rest hp hd
      rw [hr] at h; cases h

end Sys2Proof.Machine
end

