-- ==== Sys2Proof/Laws/Run.lean ====
section
/-! SUPPORT. A run taken apart (`48_tick.md` R196): one event and the rest, one list of events after another. -/

namespace Sys2Proof.Machine

theorem observe_nil (s : State) : observe [] s = .next { outputs := [], final := s } := rfl

/-- One event, then the rest of the run. -/
theorem observe_cons (e : HostEvent) (rest : List HostEvent) (s t : State) (h : step (present e s) = .next t) :
    observe (e :: rest) s = emitBefore (emitted t.result) (observe rest t) := by
  simp only [observe, h]

theorem emitBefore_nil (o : Host.Outcome Observation Fault Refusal) : emitBefore [] o = o := by
  cases o <;> rfl

theorem emitBefore_append (l m : List OutBits) (o : Host.Outcome Observation Fault Refusal) :
    emitBefore l (emitBefore m o) = emitBefore (l ++ m) o := by
  cases o <;> simp [emitBefore]

/-- A run over two lists is the second from where the first ended, its words after the first one's. -/
theorem observe_append (l m : List HostEvent) (s : State) (r : Observation) (h : observe l s = .next r) :
    observe (l ++ m) s = emitBefore r.outputs (observe m r.final) := by
  induction l generalizing s r with
  | nil => rw [observe_nil, Host.Outcome.next.injEq] at h; rw [← h]; exact (emitBefore_nil _).symm
  | cons e l ih =>
    cases hs : step (present e s) with
    | next t =>
      rw [observe_cons e l s t hs] at h
      cases ho : observe l t with
      | next q =>
        rw [ho, emitBefore, Host.Outcome.next.injEq] at h
        rw [List.cons_append, observe_cons e (l ++ m) s t hs, ih t q ho, emitBefore_append, ← h]
      | fault q => rw [ho] at h; cases h
      | refused q => rw [ho] at h; cases h
    | fault q => simp only [observe, hs] at h; cases h
    | refused q => simp only [observe, hs] at h; cases h

/-- The event presented is the one the next step takes, and what was to come before stays. -/
theorem step_present_tick (w : TickBits) (t : TickWord) (s : State) (hd : decodeTick w = .ok t) :
    step (present (.tick w) s) = exec (.tick t) s :=
  step_tick _ w t s.pending rfl hd

theorem step_present_reset (s : State) : step (present .reset s) = exec .reset s :=
  step_reset _ s.pending rfl

end Sys2Proof.Machine
end

