-- ==== Sys2Proof/Laws/Words.lean ====
section
/-! SUPPORT. The packed words as numbers (`30_encoding.md` R71, R78): what an encoder gives, field by field, and what a
field of a word is, so that a round trip is arithmetic. -/

namespace Sys2Proof

/-- The output word as a number (R78). -/
theorem encodeOut_toNat (x y : Word32) (bank slot : BitVec 4) :
    (encodeOut x y bank slot).toNat
      = x.toNat + 4294967296 * (y.toNat + 4294967296 * (bank.toNat + 16 * slot.toNat)) := by
  have h1 := x.isLt
  have h2 := y.isLt
  have h3 := bank.isLt
  have h4 := slot.isLt
  have e1 : (0#24 ++ slot).toNat = slot.toNat := by
    rw [BitVec.toNat_append, ← Nat.shiftLeft_add_eq_or_of_lt h4]; simp
  have e2 : (0#24 ++ slot ++ bank).toNat = bank.toNat + 16 * slot.toNat := by
    rw [BitVec.toNat_append, ← Nat.shiftLeft_add_eq_or_of_lt h3, e1, Nat.shiftLeft_eq]; omega
  have e3 : (0#24 ++ slot ++ bank ++ y).toNat = y.toNat + 4294967296 * (bank.toNat + 16 * slot.toNat) := by
    rw [BitVec.toNat_append, ← Nat.shiftLeft_add_eq_or_of_lt h2, e2, Nat.shiftLeft_eq]; omega
  have e4 : (0#24 ++ slot ++ bank ++ y ++ x).toNat
      = x.toNat + 4294967296 * (y.toNat + 4294967296 * (bank.toNat + 16 * slot.toNat)) := by
    rw [BitVec.toNat_append, ← Nat.shiftLeft_add_eq_or_of_lt h1, e3, Nat.shiftLeft_eq]; omega
  exact e4

theorem extract_toNat {n : Nat} (v : BitVec n) (i k : Nat) : (v.extractLsb' i k).toNat = v.toNat / 2 ^ i % 2 ^ k := by
  rw [BitVec.extractLsb'_toNat, Nat.shiftRight_eq_div_pow]

theorem outX_encodeOut (x y : Word32) (bank slot : BitVec 4) : outX (encodeOut x y bank slot) = x.toInt := by
  unfold outX
  congr 1
  apply BitVec.eq_of_toNat_eq
  have := x.isLt
  rw [extract_toNat, encodeOut_toNat]; omega

theorem outY_encodeOut (x y : Word32) (bank slot : BitVec 4) : outY (encodeOut x y bank slot) = y.toInt := by
  unfold outY
  congr 1
  apply BitVec.eq_of_toNat_eq
  have := x.isLt
  have := y.isLt
  rw [extract_toNat, encodeOut_toNat]; omega

theorem outBank_encodeOut (x y : Word32) (bank slot : BitVec 4) : outBank (encodeOut x y bank slot) = bank := by
  unfold outBank
  apply BitVec.eq_of_toNat_eq
  have := x.isLt
  have := y.isLt
  have := bank.isLt
  rw [extract_toNat, encodeOut_toNat]; omega

theorem outSlot_encodeOut (x y : Word32) (bank slot : BitVec 4) : outSlot (encodeOut x y bank slot) = slot := by
  unfold outSlot
  apply BitVec.eq_of_toNat_eq
  have := x.isLt
  have := y.isLt
  have := bank.isLt
  have := slot.isLt
  rw [extract_toNat, encodeOut_toNat]; omega

theorem decodeSwitch_eq_some (c : BitVec 2) (sw : Switch) (h : decodeSwitch c = some sw) : encodeSwitch sw = c := by
  revert c sw; decide

theorem decodeSwitch_encodeSwitch (sw : Switch) : decodeSwitch (encodeSwitch sw) = some sw := by
  cases sw <;> decide

/-- A number is a field of it and what stands above the field. -/
theorem field_add_rest (v i k : Nat) : v / 2 ^ i = v / 2 ^ i % 2 ^ k + 2 ^ k * (v / 2 ^ (i + k)) := by
  rw [Nat.pow_add, ← Nat.div_div_eq_div_mul]; exact (Nat.mod_add_div _ _).symm

/-- One bit of a word, as a number. -/
theorem getLsbD_toNat {n : Nat} (v : BitVec n) (i : Nat) : (v.getLsbD i).toNat = v.toNat / 2 ^ i % 2 ^ 1 := by
  rw [BitVec.getLsbD, Nat.testBit_eq_decide_div_mod_eq, Nat.pow_one]
  rcases Nat.mod_two_eq_zero_or_one (v.toNat / 2 ^ i) with h | h <;> rw [h] <;> decide

/-- Two words side by side, as a number. -/
theorem append_toNat {n m : Nat} (x : BitVec n) (y : BitVec m) : (x ++ y).toNat = y.toNat + 2 ^ m * x.toNat := by
  rw [BitVec.toNat_append, ← Nat.shiftLeft_add_eq_or_of_lt y.isLt, Nat.shiftLeft_eq]; ring

/-- The tick word as a number (R71). -/
theorem encodeTick_toNat (t : TickWord) : (encodeTick t).toNat =
    t.freq.toNat + 65536 * (t.cv.toNat + 65536 * (t.ctl1.toNat + 65536 * (t.aud1.toNat + 65536 * (t.ctl2.toNat
      + 65536 * (t.aud2.toNat + 65536 * ((encodeSwitch t.sw).toNat + 4 * (t.trigOsc.toNat
        + 2 * (t.trigBank.toNat + 2 * t.trigSlot.toNat)))))))) := by
  have e : (0#27 ++ BitVec.ofBool t.trigSlot ++ BitVec.ofBool t.trigBank ++ BitVec.ofBool t.trigOsc
      ++ encodeSwitch t.sw ++ t.aud2 ++ t.ctl2 ++ t.aud1 ++ t.ctl1 ++ t.cv ++ t.freq).toNat =
    t.freq.toNat + 65536 * (t.cv.toNat + 65536 * (t.ctl1.toNat + 65536 * (t.aud1.toNat + 65536 * (t.ctl2.toNat
      + 65536 * (t.aud2.toNat + 65536 * ((encodeSwitch t.sw).toNat + 4 * (t.trigOsc.toNat
        + 2 * (t.trigBank.toNat + 2 * t.trigSlot.toNat)))))))) := by
    simp only [append_toNat, BitVec.toNat_ofBool]; norm_num
  exact e

end Sys2Proof
end

