-- ==== Sys2Proof/Tests/Slice0.lean ====
section
/-! SUPPORT. Tests. Every expected value is from `95_test_vectors.md` (hand-derived there from the rules, over CFG_T) or from
the encodings of `30_encoding.md`, none from the model. At the end, one witness per statement that has hypotheses. -/

set_option Elab.async false

namespace Sys2Proof.Tests

open Sys2Proof Sys2Proof.Machine

/-- What an operation returned. -/
def resultOf (o : Host.Outcome State Fault Refusal) : Option OpResult :=
  match o with
  | .next t => some t.result
  | .fault _ => none
  | .refused _ => none

/-- One field of the state an operation leaves. -/
def fieldOf {α : Type} (f : State → α) (o : Host.Outcome State Fault Refusal) : Option α :=
  match o with
  | .next t => some (f t)
  | .fault _ => none
  | .refused _ => none

/-- A signed 16-bit word. -/
def h16 (v : Int) : Half := BitVec.ofInt 16 v

/-- The state after reset with the phase `p`, the modulation values `m1`, `m2`, and every rotation phase `a`. -/
def shapeState (p : Phase) (m1 m2 : Int) (a : Phase) : State :=
  { State.reset with ph := p, mod1 := BitVec.ofInt 32 m1, mod2 := BitVec.ofInt 32 m2, rot := #v[a, a, a, a] }

/-- The state after reset at bank `b`, slot `k`. -/
def selectorState (b k : BitVec 4) : State :=
  { State.reset with bank := b, slot := k }

/-- The state after reset with the filter at `x`, `y`. -/
def filterState (x y : Int) : State :=
  { State.reset with fx := BitVec.ofInt 32 x, fy := BitVec.ofInt 32 y }

/-- The state after a first tick in offset mode with `MOD1 = 3000`, `MOD2 = 2048` (program P2, tick 1). -/
def offsetState : State :=
  { State.reset with mode := .offset, modeV := true, mod1 := 3000#32, mod2 := 2048#32 }

/-! ### Well-formedness: each check refuses an ill-formed term -/

theorem test_wf_lpf_x : Instr.wellFormed (.lpfStep 2147483648 0) = false := by decide
theorem test_wf_lpf_y : Instr.wellFormed (.lpfStep 0 (-2147483649)) = false := by decide
theorem test_wf_lpf_edges : Instr.wellFormed (.lpfStep (-2147483648) 2147483647) = true := by decide
theorem test_wf_morph_low : Instr.wellFormed (.morphMix 0 0 (-1)) = false := by decide
theorem test_wf_morph_high : Instr.wellFormed (.morphMix 0 0 4097) = false := by decide
theorem test_wf_tick_switch : tickWellFormed 0x00000003000000000000000000000000#128 = false := by decide
theorem test_wf_tick_bit101 : tickWellFormed 0x00000020000000000000000000000000#128 = false := by decide
theorem test_wf_tick_bit127 : tickWellFormed 0x80000000000000000000000000000000#128 = false := by decide
theorem test_wf_tick_zero : tickWellFormed 0#128 = true := by decide

/-- CFG_T is well-formed (`95_test_vectors.md` section 2, rule R195). -/
theorem test_wf_testConfig : cfgWellFormed testConfig = true := by decide +kernel

theorem test_wf_cfg_coefficient (c : Cfg) (h : c.lpfCoef = 0) : cfgWellFormed c = false := by
  simp [cfgWellFormed, structureOk, h]

theorem test_wf_cfg_coefficient_high (c : Cfg) (h : 2 ^ c.lpfShift.val < c.lpfCoef) : cfgWellFormed c = false := by
  have : ¬ c.lpfCoef ≤ 2 ^ c.lpfShift.val := by omega
  simp [cfgWellFormed, structureOk, this]

theorem test_wf_cfg_flip (c : Cfg) (hx : c.fnFlipX = false) (hy : c.fnFlipY = false) : cfgWellFormed c = false := by
  simp [cfgWellFormed, structureOk, hx, hy]

theorem test_wf_cfg_path (c : Cfg) (h : pathLen c 1 = 0) : cfgWellFormed c = false := by
  simp [cfgWellFormed, structureOk, countIn, h]

theorem test_wf_cfg_banks (c : Cfg) (h : bankCount c = 17) : cfgWellFormed c = false := by
  simp [cfgWellFormed, structureOk, countIn, h]

theorem test_wf_cfg_descriptor (c : Cfg) (h : c.gdesc = [[0x00#8, 0x03#8]]) : cfgWellFormed c = false := by
  simp [cfgWellFormed, structureOk, countIn, bankCount, h]
  intros; exfalso; revert ‹legalDesc 3#8 = true›; decide

theorem test_wf_cfg_first (c : Cfg) (h : c.gdesc = [[0x01#8]]) : cfgWellFormed c = false := by
  simp [cfgWellFormed, structureOk, countIn, bankCount, readDesc, h]

theorem test_wf_cfg_slots (c : Cfg) (h : c.gdesc = [[0x00#8], []]) : cfgWellFormed c = false := by
  simp [cfgWellFormed, structureOk, countIn, bankCount, h]

theorem test_nonDecreasing : nonDecreasing [1#32, 1#32, 5#32] = true ∧ nonDecreasing [1#32, 5#32, 4#32] = false := by decide

/-! ### Decoding: words written out from R71, R73, R74 and R80 -/

/-- `tick freq=-5 cv=-32768 ctl1=4096 ctl2=2048 sw=ofs` (section 3.9). -/
theorem test_decode_tick_negative : decodeTableWord 128 0x0000000100000800000010008000FFFB = some (.tick {
    freq := h16 (-5), cv := h16 (-32768), ctl1 := 4096#16, aud1 := 0#16, ctl2 := 2048#16, aud2 := 0#16,
    sw := .ofs, trigOsc := false, trigBank := false, trigSlot := false }) := by decide

/-- `tick sw=ofs2 trig=b` (section 3.9): bits 97:96 = 2, bit 99. -/
theorem test_decode_tick_ofs2 : decodeTableWord 128 0x0000000A000000000000000000000000 = some (.tick {
    freq := 0#16, cv := 0#16, ctl1 := 0#16, aud1 := 0#16, ctl2 := 0#16, aud2 := 0#16,
    sw := .ofs2, trigOsc := false, trigBank := true, trigSlot := false }) := by decide

/-- Every field in its own place: `FREQ`, `CV`, `CTL1`, `AUD1`, `CTL2`, `AUD2` at bits 0, 16, 32, 48, 64, 80 (R71). -/
theorem test_decode_tick_fields : decodeTableWord 128 0x00000000000600050004000300020001 = some (.tick {
    freq := 1#16, cv := 2#16, ctl1 := 3#16, aud1 := 4#16, ctl2 := 5#16, aud2 := 6#16,
    sw := .att, trigOsc := false, trigBank := false, trigSlot := false }) := by decide

theorem test_decode_tick_refused : decodeTableWord 128 0x00000003000000000000000000000000 = none
    ∧ decodeTableWord 128 0x00000020000000000000000000000000 = none
    ∧ decodeTableWord 128 0x80000000000000000000000000000000 = none := by decide

/-- The seven descriptors of section 3.9. -/
theorem test_decode_descriptors : decodeTableWord 8 0b00000000 = some .shapeFn
    ∧ decodeTableWord 8 0b00000001 = some (.shapeMesh 0) ∧ decodeTableWord 8 0b00000101 = some (.shapeMesh 1)
    ∧ decodeTableWord 8 0b00001001 = some (.shapeMesh 2) ∧ decodeTableWord 8 0b00000010 = some (.shapeWt 0)
    ∧ decodeTableWord 8 0b00000110 = some (.shapeWt 1) ∧ decodeTableWord 8 0b00001010 = some (.shapeWt 2) := by decide

theorem test_decode_descriptors_refused : decodeTableWord 8 0x03 = none ∧ decodeTableWord 8 0x07 = none
    ∧ decodeTableWord 8 0x04 = none ∧ decodeTableWord 8 0x0D = none ∧ decodeTableWord 8 0x0E = none
    ∧ decodeTableWord 8 0x10 = none := by decide

/-- The operations a tick word selects (R76), for `sw=att trig=os` and for `sw=ofs2 trig=b`. -/
theorem test_tickOps : (match decodeTick 0x0000001400000800FFFF100000000800#128 with
      | .ok t => tickOps t
      | .error _ => []) = [.phaseAdv 2048#16 0#16, .modRouteAtt 4096#16 2048#16 0#16 (h16 (-1)) 0#16, .selAdvOsc, .selAdvSlot]
    ∧ (match decodeTick 0x0000000A000000000000000000000000#128 with
      | .ok t => tickOps t
      | .error _ => []) = [.phaseAdv 0#16 0#16, .modRouteOfs2 0#16 0#16 0#16 0#16 0#16, .selAdvBank] := by decide

/-- `X = 1429, Y = 434, BANK = 1, SLOT = 1` and `X = -672, Y = -360, BANK = 2, SLOT = 2` (section 3.9). -/
theorem test_outWord : encodeOut 1429#32 434#32 1#4 1#4 = 0x00000011000001B200000595#96
    ∧ encodeOut (BitVec.ofInt 32 (-672)) (BitVec.ofInt 32 (-360)) 2#4 2#4 = 0x00000022FFFFFE98FFFFFD60#96 := by decide

/-! ### One or two steps per operation -/

/-- Section 3.1: a negative `freq` rescued by `cv`. -/
theorem test_phaseAdv : resultOf (exec (.phaseAdv (h16 (-100)) 200#16) State.reset) = some (.phase 0x00013200#32) := by
  decide +kernel

/-- Section 3.1: clamped low; the sum -32773 does not wrap, and the phase wraps to exactly 0. -/
theorem test_phaseAdv_clamp : fieldOf State.ph (exec (.phaseAdv (h16 (-5)) (h16 (-32768))) (shapeState 0xFFFF0000#32 0 0 0#32))
    = some 0x00000000#32 := by decide +kernel

/-- Section 3.1: from `ROT[1] = 0x00100000`, `ROT.ADV(1, 0)` gives `0xFFF00000`. -/
theorem test_rotAdv_back : fieldOf State.rot (exec (.rotAdv 1 0) (shapeState 0#32 0 0 0x00100000#32))
    = some #v[0x00100000#32, 0xFFF00000#32, 0x00100000#32, 0x00100000#32] := by decide +kernel

/-- Section 3.1: clamped to 4096. -/
theorem test_rotAdv_clamp : resultOf (exec (.rotAdv 3 9999) State.reset) = some (.phase 0x00200000#32) := by decide +kernel

/-- Section 3.2: the wrap, the neighbour of entry 511 is entry 0. -/
theorem test_lutRead_wrap : resultOf (exec (.lutRead .sin 0xFFFFFFFF#32) State.reset) = some (.sample (-1)) := by
  decide +kernel

/-- Section 3.2: the ramp's jump, interpolated across the wrap. -/
theorem test_lutRead_wt : resultOf (exec (.lutRead (.wt 0 .b .v) 0xFFFFFFFF#32) State.reset) = some (.sample 2047) := by
  decide +kernel

theorem test_lutSin : resultOf (exec (.lutSin 0x12345678#32) State.reset) = some (.sample 7994) := by decide +kernel

theorem test_lutCos : resultOf (exec (.lutCos 0x40400000#32) State.reset) = some (.sample (-128)) := by decide +kernel

theorem test_lutCos_wrap : resultOf (exec (.lutCos 0xC0000000#32) State.reset) = some (.sample 0) := by decide +kernel

theorem test_growScale : resultOf (exec (.growScale 0x12345678#32 1000) State.reset) = some (.phase 0x0471C71C#32) := by
  decide +kernel

theorem test_growScale_high : resultOf (exec (.growScale 0x80000000#32 5000) State.reset) = some (.phase 0x80000000#32) := by
  decide +kernel

/-- Section 3.3: section 1 turns backward, and floors. -/
theorem test_fnArc_negative : resultOf (exec (.fnArc 0x60000000#32) State.reset) = some (.pair ⟨1024, 0⟩) := by decide +kernel

theorem test_fnArc_last : resultOf (exec (.fnArc 0xBFFFFFFF#32) State.reset) = some (.pair ⟨1023, -1⟩) := by decide +kernel

theorem test_fnFlip : resultOf (exec (.fnFlip 0x80000000#32 5 7) State.reset) = some (.pair ⟨-5, 7⟩) := by decide +kernel

theorem test_fnFlip_not : resultOf (exec (.fnFlip 0x7FFFFFFF#32 5 7) State.reset) = some (.pair ⟨5, 7⟩) := by decide +kernel

theorem test_rot2d : resultOf (exec (.rot2d (-3) 5 0x20000000#32) State.reset) = some (.pair ⟨-6, 1⟩) := by decide +kernel

theorem test_rot2d_quarter : resultOf (exec (.rot2d 1024 0 0x40000000#32) State.reset) = some (.pair ⟨0, 1024⟩) := by
  decide +kernel

/-- Section 3.3: the rotation is advanced first, then used. -/
theorem test_shapeFn_advances : resultOf (exec .shapeFn (shapeState 0x00100000#32 4096 0 0#32)) = some (.pair ⟨1, 1022⟩) := by
  decide +kernel

/-- Section 3.3: half growth, flipped on the original phase. -/
theorem test_shapeFn_flip : resultOf (exec .shapeFn (shapeState 0xA0000000#32 2048 2048 0#32)) = some (.pair ⟨-768, 768⟩) := by
  decide +kernel

/-- Section 3.4: the last weight of segment 0. -/
theorem test_pathInterp : resultOf (exec (.pathInterp 1 0x55555555#32) State.reset) = some (.triple ⟨0, 1023, 0⟩) := by
  decide +kernel

/-- Section 3.4: the last segment closes onto point 0. -/
theorem test_pathInterp_closes : resultOf (exec (.pathInterp 2 0xF0000000#32) State.reset) = some (.triple ⟨-1024, -1024, 0⟩) := by
  decide +kernel

theorem test_rot3dY : resultOf (exec (.rot3dY 0 512 512 0x40000000#32) State.reset) = some (.triple ⟨512, 512, 0⟩) := by
  decide +kernel

theorem test_rot3dY_floor : resultOf (exec (.rot3dY (-513) 7 300 0xE0000000#32) State.reset)
    = some (.triple ⟨-610, 7, -160⟩) := by decide +kernel

theorem test_isoProj : resultOf (exec (.isoProj 1535 (-1024) (-1)) State.reset) = some (.pair ⟨1535, -1025⟩) := by
  decide +kernel

theorem test_meshScale : resultOf (exec (.meshScale 1535 (-1025)) State.reset) = some (.pair ⟨2302, -1538⟩) := by
  decide +kernel

/-- Section 3.4: instance 2 on `ROT[3]`. -/
theorem test_shapeMesh : resultOf (exec (.shapeMesh 2) (shapeState 0xF0000000#32 4096 4096 0#32))
    = some (.pair ⟨-1536, -1535⟩) := by decide +kernel

theorem test_shapeMesh_rot : fieldOf State.rot (exec (.shapeMesh 2) (shapeState 0xF0000000#32 4096 4096 0#32))
    = some #v[0#32, 0#32, 0#32, 0x00200000#32] := by decide +kernel

theorem test_wtFetch : resultOf (exec (.wtFetch 0 0x00200000#32) State.reset)
    = some (.samples ⟨-2046, -2044, -2044, 2046⟩) := by decide +kernel

theorem test_wtFetch_wrap : resultOf (exec (.wtFetch 2 0xFFFFFFFF#32) State.reset)
    = some (.samples ⟨-512, -512, -512, 511⟩) := by decide +kernel

theorem test_morphMix_floor : resultOf (exec (.morphMix 4 3 2048) State.reset) = some (.sample 3) := by decide +kernel

theorem test_morphMix_negative : resultOf (exec (.morphMix 5 (-5) 1) State.reset) = some (.sample 4) := by decide +kernel

/-- R153 with CFG_T's gains: the vertical channel inverted (first row of section 3.5's `SHAPE.WT`). -/
theorem test_wtScale : resultOf (exec (.wtScale (-2046) (-2044)) State.reset) = some (.pair ⟨-2046, 2044⟩) := by
  decide +kernel

theorem test_shapeWt : resultOf (exec (.shapeWt 0) (shapeState 0x00200000#32 4096 4095 0#32)) = some (.pair ⟨-2045, -2045⟩) := by
  decide +kernel

theorem test_shapeWt_clamp : resultOf (exec (.shapeWt 0) (shapeState 0x00200000#32 4096 (-9) 0#32))
    = some (.pair ⟨-2046, 2044⟩) := by decide +kernel

/-- Section 3.6: floor, not 0, and the largest product. -/
theorem test_modRouteAtt : resultOf (exec (.modRouteAtt 1000#16 (h16 (-32768)) 0#16 (h16 (-3)) (h16 (-32768))) State.reset)
    = some (.pair ⟨-1, 262144⟩) := by decide +kernel

/-- Program P2, tick 2: a change to attenuate freezes both channels, and the values hold. -/
theorem test_modRouteAtt_freeze : resultOf (exec (.modRouteAtt 3000#16 2048#16 0#16 500#16 0#16) offsetState)
      = some (.pair ⟨3000, 2048⟩)
    ∧ fieldOf State.g1 (exec (.modRouteAtt 3000#16 2048#16 0#16 500#16 0#16) offsetState) = some true := by decide +kernel

/-- Section 3.6: the largest and the smallest sum, not clamped. -/
theorem test_modRouteOfs : resultOf (exec (.modRouteOfs 32767#16 (h16 (-32768)) 0#16 32767#16 (h16 (-32768))) State.reset)
    = some (.pair ⟨65534, -65536⟩) := by decide +kernel

/-- Section 3.6: with `MODE = 1` recorded, `SW = 2` does not freeze. -/
theorem test_modRouteOfs2 : resultOf (exec (.modRouteOfs2 4096#16 2048#16 0#16 500#16 (h16 (-100))) offsetState)
    = some (.pair ⟨4596, 1948⟩) := by decide +kernel

theorem test_guardFreeze : fieldOf (fun s => (s.g1, s.g2, s.ref1, s.ref2)) (exec (.guardFreeze 3000#16 2048#16) State.reset)
    = some (true, true, 3000#16, 2048#16) := by decide +kernel

/-- Section 3.6: a distance of 16 holds and 17 releases (P2, ticks 3 and 4). -/
theorem test_guardRelease : fieldOf (fun s => (s.g1, s.g2)) (exec (.guardRelease 3016#16 2031#16)
    { offsetState with g1 := true, g2 := true, ref1 := 3000#16, ref2 := 2048#16 }) = some (true, false) := by decide +kernel

/-- Section 3.7. -/
theorem test_selAdvOsc_slot : fieldOf (fun s => (s.bank, s.slot)) (exec .selAdvOsc (selectorState 1#4 1#4))
    = some (1#4, 2#4) := by decide +kernel

theorem test_selAdvOsc_wrap : fieldOf (fun s => (s.bank, s.slot)) (exec .selAdvOsc (selectorState 2#4 2#4))
    = some (0#4, 0#4) := by decide +kernel

theorem test_selAdvBank : fieldOf (fun s => (s.bank, s.slot)) (exec .selAdvBank (selectorState 1#4 2#4))
    = some (2#4, 0#4) := by decide +kernel

theorem test_selAdvBank_wrap : fieldOf (fun s => (s.bank, s.slot)) (exec .selAdvBank (selectorState 2#4 1#4))
    = some (0#4, 0#4) := by decide +kernel

theorem test_selAdvSlot : fieldOf (fun s => (s.bank, s.slot)) (exec .selAdvSlot (selectorState 2#4 0#4))
    = some (2#4, 1#4) := by decide +kernel

theorem test_selAdvSlot_wrap : fieldOf (fun s => (s.bank, s.slot)) (exec .selAdvSlot (selectorState 1#4 2#4))
    = some (1#4, 0#4) := by decide +kernel

/-- Section 3.8: from above the last step arrives, from below it stalls. -/
theorem test_lpfStep : resultOf (exec (.lpfStep 1024 1024) (filterState 1025 1023)) = some (.pair ⟨1024, 1023⟩) := by
  decide +kernel

/-- Section 3.8: the widest differences. -/
theorem test_lpfStep_wide : resultOf (exec (.lpfStep 2147483647 (-2147483648)) (filterState (-2147483648) 2147483647))
    = some (.pair ⟨1073741823, -1073741825⟩) := by decide +kernel

/-- Program P1, tick 1, through the fetch of its word. -/
theorem test_tick : resultOf (step (State.reset.withFetchWord 128 0x00000001000008000000100000000800))
    = some (.outWord 0x00000000000002FFFFFFFFFE#96) := by decide +kernel

/-- Program P3, tick 1: the selector moves first, and `MESH 0` runs. -/
theorem test_tick_selects : resultOf (step (State.reset.withFetchWord 128 0x0000000500000C000000100000000C00))
    = some (.outWord 0x00000001000006B500000477#96) := by decide +kernel

/-- The words a run returned. -/
def outputsOf (o : Host.Outcome Observation Fault Refusal) : Option (List OutBits) :=
  match o with
  | .next r => some r.outputs
  | .fault _ => none
  | .refused _ => none

/-- Program P1's `reset` and its first two ticks: two output words, in order, none for `reset` (R196). -/
theorem test_observe : outputsOf (observe [.reset, .tick 0x00000001000008000000100000000800#128,
      .tick 0x00000001000008000000100000000800#128] { State.reset with started := false })
    = some [0x00000000000002FFFFFFFFFE#96, 0x00000000000003BFFFFFFFFC#96] := by decide +kernel

/-- A run that contains a refused word has no observation (R203). -/
theorem test_observe_refused : outputsOf (observeTicks [0x00000003000000000000000000000000#128] State.reset) = none := by
  decide +kernel

/-- R36 from a state with nothing at its reset value. -/
theorem test_reset : fieldOf (fun s => (s.ph, s.rot, s.fx, s.modeV)) (exec .reset
    { shapeState 5#32 6 7 8#32 with fx := 9#32, modeV := true, started := false })
    = some (0#32, #v[0#32, 0#32, 0#32, 0#32], 0#32, false) := by decide +kernel

/-- R87: a tick word as text. -/
theorem test_render : renderTick 0x0000000A000000000000000000000000#128
    = ['0', 'x', '0', '0', '0', '0', '0', '0', '0', 'A', '0', '0', '0', '0', '0', '0', '0', '0',
       '0', '0', '0', '0', '0', '0', '0', '0', '0', '0', '0', '0', '0', '0', '0', '0'] := by decide

/-- The refusals of a tick word (R203 (a)), at the step. -/
theorem test_step_refused : resultOf (step (State.reset.withFetchWord 128 0x00000003000000000000000000000000)) = none := by
  decide +kernel

/-! ### Witnesses: for every statement with hypotheses, a state and operands that meet them, clause by clause -/

/-- A tick word used by the witnesses: program P1's. -/
def tickP1 : TickWord where
  freq := 2048#16
  cv := 0#16
  ctl1 := 4096#16
  aud1 := 0#16
  ctl2 := 2048#16
  aud2 := 0#16
  sw := .ofs
  trigOsc := false
  trigBank := false
  trigSlot := false

theorem reset_wellFormed : cfgWellFormed State.reset.cfg = true := test_wf_testConfig

/-- The premises of the statements about a tick, at the reset state. -/
theorem reset_runs : State.reset.started = true ∧ cfgWellFormed State.reset.cfg = true ∧ selectorInRange State.reset = true :=
  ⟨rfl, reset_wellFormed, by decide +kernel⟩

/-- A tick at the reset state goes on. -/
theorem reset_tick_next (w : TickWord) : ∃ u, exec (.tick w) State.reset = .next u := by
  obtain ⟨_, _, _, _, _, _, _, _, _, _, _, h⟩ := exec_tick_of_inRange w State.reset rfl reset_wellFormed reset_runs.2.2
  exact ⟨_, h⟩

theorem witness_LutSinStaysBetweenEntries : (0x00800000#32).toNat % 8388608 = 0 := by decide

theorem witness_GrowScaleMultipliesBySaturatedGrowth : (4096 : Int) ≤ 4096 ∧ (4096 : Int) ≤ 5000 := by decide

theorem witness_FnFlipMirrorsTheSecondHalf : (0x7FFFFFFF#32).toNat < 2147483648 ∧ 2147483648 ≤ (0x80000000#32).toNat := by
  decide

theorem witness_CollapsedFnShapeHasTwoPoints :
    (shapeState 0x7FFFFFFF#32 (-1) 5 9#32).cfg = (shapeState 0x12345678#32 0 5 9#32).cfg
    ∧ (shapeState 0x12345678#32 0 5 9#32).cfg.growMin = 0
    ∧ (shapeState 0x12345678#32 0 5 9#32).mod1.toInt ≤ 0 ∧ (shapeState 0x7FFFFFFF#32 (-1) 5 9#32).mod1.toInt ≤ 0
    ∧ (shapeState 0x7FFFFFFF#32 (-1) 5 9#32).mod2 = (shapeState 0x12345678#32 0 5 9#32).mod2
    ∧ (shapeState 0x7FFFFFFF#32 (-1) 5 9#32).rot[(0 : Fin 4)] = (shapeState 0x12345678#32 0 5 9#32).rot[(0 : Fin 4)]
    ∧ ((shapeState 0x7FFFFFFF#32 (-1) 5 9#32).ph.toNat < 2147483648
        ↔ (shapeState 0x12345678#32 0 5 9#32).ph.toNat < 2147483648) :=
  ⟨rfl, rfl, by decide, by decide, rfl, rfl, by decide⟩

theorem witness_PathInterpInterpolatesTheSegment : 1 ≤ (State.reset.cfg.path[(1 : Fin 3)]).length := by decide +kernel

theorem witness_ShapeMeshIsItsSubOperations :
    (3 : Fin 4).val = 1 + (2 : Fin 3).val ∧ 1 ≤ (State.reset.cfg.path[(2 : Fin 3)]).length := by decide +kernel

theorem witness_CollapsedMeshPathIsPointZero : State.reset.cfg.growMin = 0 ∧ (0 : Int) ≤ 0
    ∧ (State.reset.cfg.path[(1 : Fin 3)])[0]? = some (pointT 1024 0 0) := by decide +kernel

/-- The two ends of the weight's range and its middle. -/
theorem witness_MorphMixBlends : ((0 : Int) ≤ 0 ∧ (0 : Int) ≤ 4096) ∧ ((0 : Int) ≤ 4096 ∧ (4096 : Int) ≤ 4096)
    ∧ (0 : Int) ≤ 2048 ∧ (2048 : Int) ≤ 4096 := by decide

theorem witness_MorphLaw : (shapeState 0#32 0 0 0#32).mod2.toInt ≤ 0 ∧ 4096 ≤ (shapeState 0#32 0 4096 0#32).mod2.toInt
    ∧ (shapeState 0#32 0 2048 0#32).mod2.toInt = 2048 := by decide +kernel

/-- A change of mode and none; a channel held and a channel free, after attenuate. -/
theorem witness_RouteAttFollowsTheProcedure : (offsetState.modeV = true ∧ offsetState.mode = .offset)
    ∧ ¬ (State.reset.modeV = true ∧ State.reset.mode = .offset)
    ∧ fieldOf (fun s => (s.g1, s.g2)) (exec (.modRouteAtt 1#16 1#16 0#16 0#16 0#16) offsetState) = some (true, true)
    ∧ fieldOf (fun s => (s.g1, s.g2)) (exec (.modRouteAtt 1#16 1#16 0#16 0#16 0#16) State.reset) = some (false, false) := by
  decide +kernel

/-- The same after offset, from a state that has recorded attenuate. -/
theorem witness_RouteOfsFollowsTheProcedure :
    fieldOf (fun s => (s.g1, s.g2)) (exec (.modRouteOfs 1#16 1#16 0#16 0#16 0#16) { offsetState with mode := .attenuate })
      = some (true, true)
    ∧ fieldOf (fun s => (s.g1, s.g2)) (exec (.modRouteOfs 1#16 1#16 0#16 0#16 0#16) offsetState) = some (false, false) := by
  decide +kernel

/-- Program P2's controls: held at a distance of 16 on either side, past the deadband at 17. -/
theorem witness_GuardLawOfChannelOne : offsetState.modeV = true ∧ offsetState.mode ≠ .attenuate
    ∧ (∀ v ∈ [RouteInput.mk 3016#16 0#16 500#16 0#16, RouteInput.mk 2984#16 0#16 500#16 0#16],
        |v.ctl1.toInt - (3000#16 : Half).toInt| ≤ (offsetState.cfg.deadband : Int))
    ∧ (offsetState.cfg.deadband : Int) < |(3017#16 : Half).toInt - (3000#16 : Half).toInt|
    ∧ [RouteInput.mk 3017#16 0#16 500#16 0#16].getLast? = some (RouteInput.mk 3017#16 0#16 500#16 0#16) := by decide +kernel

theorem witness_GuardLawOfChannelTwo : offsetState.modeV = true ∧ offsetState.mode ≠ .attenuate
    ∧ (∀ v ∈ [RouteInput.mk 0#16 2064#16 0#16 500#16, RouteInput.mk 0#16 2032#16 0#16 500#16],
        |v.ctl2.toInt - (2048#16 : Half).toInt| ≤ (offsetState.cfg.deadband : Int))
    ∧ (offsetState.cfg.deadband : Int) < |(2031#16 : Half).toInt - (2048#16 : Half).toInt|
    ∧ [RouteInput.mk 0#16 2031#16 0#16 500#16].getLast? = some (RouteInput.mk 0#16 2031#16 0#16 500#16) := by decide +kernel

/-- The last slot of a bank and a slot before it. -/
theorem witness_SelAdvOscStepsThroughTheLayout : cfgWellFormed (selectorState 1#4 2#4).cfg = true
    ∧ ((selectorState 1#4 2#4).cfg.gdesc[(selectorState 1#4 2#4).bank.toNat]?).map List.length = some 3
    ∧ (selectorState 1#4 2#4).slot.toNat + 1 = 3 ∧ (selectorState 1#4 1#4).slot.toNat + 1 ≠ 3 :=
  ⟨reset_wellFormed, by decide, by decide, by decide⟩

theorem witness_SelAdvBankTakesTheNextBank : cfgWellFormed (selectorState 2#4 1#4).cfg = true := reset_wellFormed

theorem witness_SelAdvSlotStaysInTheBank : cfgWellFormed (selectorState 2#4 2#4).cfg = true
    ∧ ((selectorState 2#4 2#4).cfg.gdesc[(selectorState 2#4 2#4).bank.toNat]?).map List.length = some 3 :=
  ⟨reset_wellFormed, by decide⟩

theorem witness_SelectorCycleLaw : cfgWellFormed (selectorState 2#4 1#4).cfg = true
    ∧ selectorInRange (selectorState 2#4 1#4) = true ∧ totalSlots (selectorState 2#4 1#4).cfg = 7 :=
  ⟨reset_wellFormed, by decide +kernel, by decide +kernel⟩

theorem witness_BankAndSlotCycles : cfgWellFormed (selectorState 2#4 0#4).cfg = true
    ∧ ((selectorState 2#4 0#4).cfg.gdesc[(selectorState 2#4 0#4).bank.toNat]?).map List.length = some 3
    ∧ (selectorState 2#4 0#4).slot.toNat < 3 ∧ (selectorState 2#4 0#4).slot = 0#4 :=
  ⟨reset_wellFormed, by decide, by decide, rfl⟩

/-- The widest raw samples. -/
theorem witness_LpfStepFollowsTheRecurrence : fitsS32 2147483647 = true ∧ fitsS32 (-2147483648) = true := by decide

/-- The widest operands, and an input below the filter. -/
theorem witness_LpfNeverOvershoots : 0 < State.reset.cfg.lpfCoef
    ∧ State.reset.cfg.lpfCoef ≤ 2 ^ State.reset.cfg.lpfShift.val ∧ fitsS32 2147483647 = true ∧ fitsS32 (-2147483648) = true
    ∧ (-2147483648 : Int) < (filterState 2147483647 0).fx.toInt ∧ (-1 : Int) < (filterState 0 0).fy.toInt := by decide +kernel

/-- From above, from below, and inside the band of CFG_T, whose width is one. -/
theorem witness_LpfConverges : 0 < State.reset.cfg.lpfCoef
    ∧ State.reset.cfg.lpfCoef ≤ 2 ^ State.reset.cfg.lpfShift.val ∧ fitsS32 1024 = true
    ∧ (1024 : Int) ≤ (filterState 1030 1030).fx.toInt ∧ (filterState 0 0).fx.toInt ≤ (1024 : Int)
    ∧ (filterState 1023 1023).fx.toInt ≤ (1024 : Int) ∧ (filterState 1023 1023).fy.toInt ≤ (1024 : Int)
    ∧ (1024 - (filterState 1023 1023).fx.toInt) * (State.reset.cfg.lpfCoef : Int) < 2 ^ State.reset.cfg.lpfShift.val
    ∧ (1024 - (filterState 1023 1023).fy.toInt) * (State.reset.cfg.lpfCoef : Int) < 2 ^ State.reset.cfg.lpfShift.val := by
  decide +kernel

theorem witness_TickIsItsSlotOperations : State.reset.started = true ∧ cfgWellFormed State.reset.cfg = true
    ∧ selectorInRange State.reset = true := reset_runs

/-- The three kinds of generator a tick may run: none moves another's rotation phase. -/
theorem witness_TickAdvancesOnlyTheActiveRotation : cfgWellFormed State.reset.cfg = true
    ∧ selectorInRange (selectorState 0#4 0#4) = true ∧ selectorInRange (selectorState 1#4 2#4) = true
    ∧ selectorInRange (selectorState 2#4 0#4) = true :=
  ⟨reset_wellFormed, by decide +kernel, by decide +kernel, by decide +kernel⟩

theorem witness_FirstTickFreezesNothing : (State.reset.started = true ∧ cfgWellFormed State.reset.cfg = true
    ∧ selectorInRange State.reset = true) ∧ State.reset.modeV = false ∧ State.reset.g1 = false ∧ State.reset.g2 = false :=
  ⟨reset_runs, rfl, rfl, rfl⟩

theorem witness_OutputWordCarriesFilterAndSelector : State.reset.started = true ∧ cfgWellFormed State.reset.cfg = true
    ∧ selectorInRange State.reset = true := reset_runs

/-- Before the first tick of the scenario and after it. -/
theorem witness_EndToEndTick : (State.reset.started = true ∧ cfgWellFormed State.reset.cfg = true
      ∧ State.reset.bank = 0#4 ∧ State.reset.slot = 0#4 ∧ State.reset.g1 = false ∧ State.reset.g2 = false
      ∧ (State.reset.modeV = true → State.reset.mode = .offset))
    ∧ offsetState.modeV = true ∧ offsetState.mode = .offset ∧ offsetState.g1 = false ∧ offsetState.g2 = false :=
  ⟨⟨rfl, reset_wellFormed, rfl, rfl, rfl, rfl, by decide +kernel⟩, rfl, rfl, rfl, rfl⟩

theorem witness_ResetClearsEveryRegister : cfgWellFormed (shapeState 5#32 6 7 8#32).cfg = true := reset_wellFormed

/-- One state for each clause: a well-formed word, the reset event, nothing to present. -/
theorem witness_StepRunsTheDecodedEvent :
    (setPending [.tick 0x00000001000008000000100000000800#128] State.reset).pending
      = .tick 0x00000001000008000000100000000800#128 :: []
    ∧ decodeTick 0x00000001000008000000100000000800#128 = .ok tickP1
    ∧ (setPending [.reset] State.reset).pending = .reset :: [] ∧ State.reset.pending = [] :=
  ⟨rfl, by rfl, rfl, rfl⟩

/-- A word that runs and a word that is refused. -/
theorem witness_TickStepIsTotalOnWellFormedInputs :
    (setPending [.tick 0#128] State.reset).pending = .tick 0#128 :: []
    ∧ selectorInRange (setPending [.tick 0#128] State.reset) = true
    ∧ tickWellFormed 0#128 = true ∧ tickWellFormed (0x00000003000000000000000000000000#128) = false :=
  ⟨rfl, reset_runs.2.2, by decide, by decide⟩

/-- A state that meets the invariant and steps by a tick. -/
theorem witness_StepKeepsTheInvariant : inv (setPending [.tick 0x00000001000008000000100000000800#128] State.reset) = true
    ∧ ∃ t, step (setPending [.tick 0x00000001000008000000100000000800#128] State.reset) = .next t := by
  refine ⟨?_, ?_⟩
  · simp only [inv, inRange, Bool.and_eq_true]
    exact ⟨⟨⟨⟨reset_wellFormed, reset_runs.2.2⟩, by decide +kernel⟩, by decide +kernel⟩, by decide +kernel⟩
  · rw [step_tick _ 0x00000001000008000000100000000800#128 tickP1 [] rfl (by rfl)]
    exact reset_tick_next tickP1

theorem witness_EveryOperationKeepsTheRanges : inRange State.reset = true
    ∧ (∃ t, exec (.tick tickP1) State.reset = .next t) ∧ ∃ t, exec .selAdvBank (selectorState 1#4 2#4) = .next t := by
  refine ⟨?_, reset_tick_next _, ⟨_, rfl⟩⟩
  simp only [inRange, Bool.and_eq_true]
  exact ⟨⟨⟨reset_wellFormed, reset_runs.2.2⟩, by decide +kernel⟩, by decide +kernel⟩

/-- Each kind of register is changed by an operation that the statement names. -/
theorem witness_OnlyTheNamedOperationsWrite :
    fieldOf (fun t => decide (t.ph ≠ State.reset.ph)) (exec (.phaseAdv 0#16 0#16) State.reset) = some true
    ∧ fieldOf (fun t => decide (t.rot ≠ State.reset.rot)) (exec (.shapeMesh 1) State.reset) = some true
    ∧ fieldOf (fun t => decide (t.fx ≠ State.reset.fx)) (exec (.lpfStep 1024 0) State.reset) = some true
    ∧ fieldOf (fun t => decide (t.mod1 ≠ State.reset.mod1)) (exec (.modRouteOfs 1#16 0#16 0#16 0#16 0#16) State.reset) = some true
    ∧ fieldOf (fun t => decide (t.g1 ≠ State.reset.g1)) (exec (.guardFreeze 1#16 0#16) State.reset) = some true
    ∧ fieldOf (fun t => decide (t.ref1 ≠ State.reset.ref1)) (exec (.guardFreeze 1#16 0#16) State.reset) = some true
    ∧ fieldOf (fun t => decide (t.bank ≠ State.reset.bank)) (exec .selAdvBank State.reset) = some true := by decide +kernel

/-- Two states that differ in the registers the generators do not read. -/
theorem witness_GeneratorsDoNotInterfere : (filterState 5 6).cfg = State.reset.cfg ∧ (filterState 5 6).ph = State.reset.ph
    ∧ (filterState 5 6).mod1 = State.reset.mod1 ∧ (filterState 5 6).mod2 = State.reset.mod2
    ∧ (filterState 5 6).rot = State.reset.rot ∧ ∃ t, exec (.shapeMesh 2) State.reset = .next t :=
  ⟨rfl, rfl, rfl, rfl, rfl, ⟨_, exec_shapeMesh 2 _ State.reset rfl⟩⟩

theorem witness_TickDependsOnRegistersAlone : ∃ u, exec (.tick tickP1) State.reset = .next u := reset_tick_next _

/-- A run of two words at the reset state. -/
theorem witness_RunReturnsOneWordPerTick : (State.reset.started = true ∧ cfgWellFormed State.reset.cfg = true
      ∧ selectorInRange State.reset = true)
    ∧ ∀ w ∈ [0x00000001000008000000100000000800#128, 0x0000000500000C000000100000000C00#128],
      tickWellFormed w = true :=
  ⟨reset_runs, List.forall_mem_cons.2 ⟨by decide, List.forall_mem_cons.2 ⟨by decide, nofun⟩⟩⟩

/-- An accepted configuration; the refused ones are `test_wf_cfg_…` above. -/
theorem witness_AcceptedConfigurationsFit : cfgWellFormed testConfig = true := test_wf_testConfig

theorem witness_DecodeInvertsEncode : encode (.shapeMesh 2) = some (8, 0x09)
    ∧ encode (.tick tickP1) = some (128, 0x00000001000008000000100000000800) := by decide

theorem witness_WellFormedTickWordsRoundTrip : decodeTick 0x00000001000008000000100000000800#128 = .ok tickP1
    ∧ tickWellFormed 0x00000001000008000000100000000800#128 = true := ⟨by rfl, by decide⟩

theorem witness_RepeatExpandsToCopies : 
    assemble ⟨some 2048, none, some 4096, none, some 2048, none, .ofs, []⟩ = some tickP1 := by decide

/-- Each stop has a state that meets its premise. -/
theorem witness_StopsAreNamed :
    ({ State.reset with cfg := { testConfig with path := #v[[], [], []] } } : State).cfg.path[(0 : Fin 3)] = []
    ∧ (selectorState 3#4 0#4).cfg.gdesc.length ≤ (selectorState 3#4 0#4).bank.toNat
    ∧ ({ State.reset with cfg := { testConfig with gdesc := [] } } : State).cfg.gdesc = []
    ∧ cfgWellFormed ({ State.reset with cfg := { testConfig with lpfCoef := 0 } } : State).cfg = false
    ∧ ({ State.reset with started := false } : State).started = false
    ∧ ({ State.reset with cfg := { testConfig with gdesc := [[]] } } : State).cfg.gdesc[(0#4).toNat]? = some []
    ∧ (cfgWellFormed (selectorState 1#4 3#4).cfg = true ∧ selectorInRange (selectorState 1#4 3#4) = false
      ∧ tickP1.trigOsc = false ∧ tickP1.trigBank = false ∧ tickP1.trigSlot = false)
    ∧ (∃ t, runOps (tickOps tickP1) (selectorState 1#4 3#4) = .next t ∧ selectorInRange t = false)
    ∧ runOps (tickOps { tickP1 with trigSlot := true }) (selectorState 3#4 0#4) = .fault .noSuchBank :=
  ⟨rfl, by decide, rfl, test_wf_cfg_coefficient _ rfl, rfl, rfl,
    ⟨reset_wellFormed, by decide +kernel, rfl, rfl, rfl⟩, ⟨_, rfl, by decide +kernel⟩, rfl⟩

end Sys2Proof.Tests
end

section
/-! PROOFS of the family `10_state.md`: what each operation writes, as one inversion lemma over the constructors, and from
it the ranges that every operation keeps (R29, R39), the writers of each register (R20), the invariant of a step, and the
independence of the generators (R33, R38). -/

namespace Sys2Proof.Machine

/-! ### What an operation writes (R20, column "written by") -/

/-- `Writes s i u`: the operation `i`, run in `s`, leaves the registers as they are in `u`. One constructor for each way
an operation other than `TICK` and `RESET` writes registers; what the operation returns is left out. -/
inductive Writes (s : State) : Instr → State → Prop
  /-- An operation that writes no register. -/
  | none (i : Instr) : Writes s i s
  /-- `PHASE.ADV` (R101). -/
  | phase (freq cv : Half) : Writes s (.phaseAdv freq cv) (advancePhase freq cv s)
  /-- `ROT.ADV` (R104). -/
  | rot (k : Fin 4) (rm : Int) : Writes s (.rotAdv k rm) (advanceRot k rm s)
  /-- `SHAPE.FN` (R127). -/
  | fnRot : Writes s .shapeFn (advanceRot 0 s.mod2.toInt s)
  /-- `SHAPE.MESH` (R142). -/
  | meshRot (j : Fin 3) : Writes s (.shapeMesh j) (advanceRot (meshRot j) s.mod2.toInt s)
  /-- `LPF.STEP` (R181). -/
  | filter (rx ry : Int) : Writes s (.lpfStep rx ry) (lpf ⟨rx, ry⟩ s)
  /-- `MOD.ROUTE.ATT` (R163). -/
  | routeAtt (a b c d e : Half) : Writes s (.modRouteAtt a b c d e) (route .attenuate a b c d e s)
  /-- `MOD.ROUTE.OFS`, the row of `SW = 1` (R164). -/
  | routeOfs (a b c d e : Half) : Writes s (.modRouteOfs a b c d e) (route .offset a b c d e s)
  /-- `MOD.ROUTE.OFS`, the row of `SW = 2` (R164). -/
  | routeOfs2 (a b c d e : Half) : Writes s (.modRouteOfs2 a b c d e) (route .offset a b c d e s)
  /-- `GUARD.FREEZE` (R165). -/
  | freeze (a b : Half) : Writes s (.guardFreeze a b) (freeze a b s)
  /-- `GUARD.RELEASE` (R166). -/
  | release (a b : Half) : Writes s (.guardRelease a b) (release a b s)
  /-- `SEL.ADVOSC` (R172). -/
  | advOsc (u : State) (h : advOsc s = some u) : Writes s .selAdvOsc u
  /-- `SEL.ADVBANK` (R173). -/
  | advBank (u : State) (h : advBank s = some u) : Writes s .selAdvBank u
  /-- `SEL.ADVSLOT` (R174). -/
  | advSlot (u : State) (h : advSlot s = some u) : Writes s .selAdvSlot u

/-- A next state of `SHAPE.MESH` comes from a raw pair of its path (R142). -/
theorem exec_shapeMesh_next (j : Fin 3) (s t : State) (h : exec (.shapeMesh j) s = .next t) :
    ∃ q, rawMesh s.cfg j s.ph s.mod1.toInt (advanceRot (meshRot j) s.mod2.toInt s).rot[meshRot j] = some q
      ∧ t = answer (.pair q) (advanceRot (meshRot j) s.mod2.toInt s) := by
  cases hq : rawMesh s.cfg j s.ph s.mod1.toInt (advanceRot (meshRot j) s.mod2.toInt s).rot[meshRot j] with
  | none => simp only [exec, execShapeMesh, shapeMesh, hq] at h; cases h
  | some q => exact ⟨q, rfl, Host.Outcome.next.inj (h.symm.trans (exec_shapeMesh j q s hq))⟩

/-- A next state of `PATH.INTERP` differs in the result only (R141). -/
theorem exec_pathInterp_next (j : Fin 3) (gp : Phase) (s t : State) (h : exec (.pathInterp j gp) s = .next t) :
    ∃ r, t = answer r s := by
  cases hq : pathInterp s.cfg j gp with
  | none => simp only [exec, execPathInterp, hq] at h; cases h
  | some q => exact ⟨_, Host.Outcome.next.inj (h.symm.trans (exec_pathInterp j gp q s hq))⟩

/-- An outcome that is a result over written registers, as the registers written. -/
theorem writes_of_answer {i : Instr} {s t u : State} {r : OpResult}
    (h : Host.Outcome.next (φ := Fault) (ρ := Refusal) (answer r u) = .next t) (hw : Writes s i u) :
    ∃ r u, t = answer r u ∧ Writes s i u :=
  ⟨r, u, (Host.Outcome.next.inj h).symm, hw⟩

/-- Every next state: of `TICK`, of `RESET`, or the operation's own register writes with its result (R20). -/
theorem exec_next_writes (i : Instr) (s t : State) (h : exec i s = .next t) :
    (∃ w, i = .tick w) ∨ i = .reset ∨ ∃ r u, t = answer r u ∧ Writes s i u := by
  cases i with
  | tick w => exact .inl ⟨w, rfl⟩
  | reset => exact .inr (.inl rfl)
  | lutRead | lutSin | lutCos | growScale | fnArc | fnFlip | rot2d | rot3dY | isoProj | meshScale | wtFetch | morphMix
  | wtScale | shapeWt => exact .inr (.inr (writes_of_answer h (.none _)))
  | pathInterp j gp =>
    obtain ⟨r, rfl⟩ := exec_pathInterp_next j gp s t h
    exact .inr (.inr ⟨r, s, rfl, .none _⟩)
  | phaseAdv freq cv => exact .inr (.inr (writes_of_answer h (.phase freq cv)))
  | rotAdv k rm => exact .inr (.inr (writes_of_answer h (.rot k rm)))
  | shapeFn => exact .inr (.inr (writes_of_answer h .fnRot))
  | shapeMesh j =>
    obtain ⟨q, -, rfl⟩ := exec_shapeMesh_next j s t h
    exact .inr (.inr ⟨_, _, rfl, .meshRot j⟩)
  | lpfStep rx ry => exact .inr (.inr (writes_of_answer h (.filter rx ry)))
  | modRouteAtt a b c d e => exact .inr (.inr (writes_of_answer h (.routeAtt a b c d e)))
  | modRouteOfs a b c d e => exact .inr (.inr (writes_of_answer h (.routeOfs a b c d e)))
  | modRouteOfs2 a b c d e => exact .inr (.inr (writes_of_answer h (.routeOfs2 a b c d e)))
  | guardFreeze a b => exact .inr (.inr (writes_of_answer h (.freeze a b)))
  | guardRelease a b => exact .inr (.inr (writes_of_answer h (.release a b)))
  | selAdvOsc =>
    obtain ⟨u, hu, rfl⟩ := selected_eq_next _ t h
    exact .inr (.inr ⟨_, u, rfl, .advOsc u hu⟩)
  | selAdvBank =>
    obtain ⟨u, hu, rfl⟩ := selected_eq_next _ t h
    exact .inr (.inr ⟨_, u, rfl, .advBank u hu⟩)
  | selAdvSlot =>
    obtain ⟨u, hu, rfl⟩ := selected_eq_next _ t h
    exact .inr (.inr ⟨_, u, rfl, .advSlot u hu⟩)

/-! ### The ranges (R29, R39) -/

theorem inRange_iff (s : State) : inRange s = true ↔ cfgWellFormed s.cfg = true ∧ selectorInRange s = true
    ∧ modInRange s.mod1 = true ∧ modInRange s.mod2 = true := by
  simp only [inRange, Bool.and_eq_true, and_assoc]

/-- What the router writes to a modulation register is in range (R39). -/
theorem modInRange_modFormula (c : Cfg) (m : RouterMode) (ctl aud : Half) :
    modInRange (cut32 (modFormula c m ctl aud)) = true := by
  rw [modInRange, modFormula_not_cut, decide_eq_true_eq]
  exact modFormula_natAbs_le c m ctl aud

/-- The router keeps the ranges: a channel holds its register or takes a formula's value (R162). -/
theorem inRange_route (m : RouterMode) (a b c d e : Half) (s : State) (h : inRange s = true) :
    inRange (route m a b c d e s) = true := by
  obtain ⟨hcfg, hsel, hm1, hm2⟩ := (inRange_iff s).mp h
  rw [route_eq]
  refine (inRange_iff _).mpr ⟨hcfg, hsel, ?_, ?_⟩
  · dsimp only; split
    · exact hm1
    · exact modInRange_modFormula ..
  · dsimp only; split
    · exact hm2
    · exact modInRange_modFormula ..

/-- A new selection keeps the ranges where it is itself in range. -/
theorem inRange_setSelector (b k : BitVec 4) (s : State) (h : inRange s = true)
    (hsel : selectorInRange (setSelector b k s) = true) : inRange (setSelector b k s) = true := by
  obtain ⟨hcfg, -, hm1, hm2⟩ := (inRange_iff s).mp h
  exact (inRange_iff _).mpr ⟨hcfg, hsel, hm1, hm2⟩

/-- A selector operation that takes a selection in range keeps the ranges. -/
theorem inRange_of_selection (o : Option State) (s u : State) (h : inRange s = true) (hu : o = some u)
    (ho : ∃ b k, o = some (setSelector b k s) ∧ selectorInRange (setSelector b k s) = true) : inRange u = true := by
  obtain ⟨b, k, e, hsel⟩ := ho
  rw [e, Option.some.injEq] at hu
  exact hu ▸ inRange_setSelector b k s h hsel

/-- No register write but the router's and the selector's touches what the ranges speak of, and those keep them. -/
theorem Writes.inRange {s : State} {i : Instr} {u : State} (hw : Writes s i u) (h : inRange s = true) :
    inRange u = true := by
  obtain ⟨hcfg, hsel, -, -⟩ := (inRange_iff s).mp h
  have hst := cfgWellFormed_structure _ hcfg
  cases hw with
  | none | phase | rot | fnRot | meshRot | filter | freeze | release => exact h
  | routeAtt | routeOfs | routeOfs2 => exact inRange_route _ _ _ _ _ _ s h
  | advOsc u hu => exact inRange_of_selection _ s u h hu (advOsc_inRange s hst hsel)
  | advBank u hu => exact inRange_of_selection _ s u h hu (advBank_inRange s hst)
  | advSlot u hu => exact inRange_of_selection _ s u h hu (advSlot_inRange s hst hsel)

/-- `RESET` selects the first slot of bank 0, which every well-formed layout has, and clears the rest (R220). -/
theorem inRange_resetRegisters (s : State) (h : cfgWellFormed s.cfg = true) : inRange (resetRegisters s) = true := by
  have hst := cfgWellFormed_structure _ h
  have hbank : (0#4).toNat < bankCount s.cfg := (structureOk_bankCount _ hst).1
  exact (inRange_iff _).mpr ⟨h, selectorInRange_first s 0#4 hst hbank, rfl, rfl⟩

/-- CFG_T meets R8's constraints and R195's sufficient condition: a closed fact about its tables. -/
theorem cfgWellFormed_testConfig : cfgWellFormed testConfig = true := by
  decide +kernel

theorem exec_reset_next (s t : State) (h : exec .reset s = .next t) :
    cfgWellFormed s.cfg = true ∧ t = resetRegisters s := by
  cases hc : cfgWellFormed s.cfg with
  | false => simp [exec, execReset, hc] at h
  | true => exact ⟨rfl, Host.Outcome.next.inj (h.symm.trans (exec_reset s hc))⟩

/-- A tick keeps the ranges and leaves a mode recorded: after slots P, M and S only rotation phases, the filter and the
result are written (R190). -/
theorem exec_tick_keeps (w : TickWord) (s t : State) (h : inRange s = true) (ht : exec (.tick w) s = .next t) :
    inRange t = true ∧ t.modeV = true := by
  obtain ⟨hstarted, hcfg⟩ := exec_tick_next w s t ht
  have hsel := ((inRange_iff s).mp h).2.1
  obtain ⟨b, k, r0, d, g, r, -, hsel', -, -, hgen, hexec⟩ := exec_tick_of_inRange w s hstarted hcfg hsel
  have hbefore : inRange (beforeShape w b k s) = true :=
    inRange_setSelector b k _ (inRange_route _ _ _ _ _ _ _ h) hsel'
  have hmode : (beforeShape w b k s).modeV = true := by simp [beforeShape, route_eq]
  obtain rfl := Host.Outcome.next.inj (ht.symm.trans hexec)
  rw [generated_frame g _ r hgen]
  exact ⟨hbefore, hmode⟩

/-! ### The invariant of a step -/

theorem inv_iff (s : State) : inv s = true ↔ inRange s = true ∧ guardsNeedMode s = true := by
  simp only [inv, Bool.and_eq_true]

theorem guardsNeedMode_of_modeV (s : State) (h : s.modeV = true) : guardsNeedMode s = true := by
  simp only [guardsNeedMode, h, Bool.true_or]

/-! ### Who writes a register (R20) -/

/-- The selector operations change the selector alone (R172 to R174). -/
theorem advOsc_frame (s u : State) (h : advOsc s = some u) : ∃ b k, u = setSelector b k s := by
  unfold advOsc at h
  split at h
  · split at h <;> exact ⟨_, _, (Option.some.inj h).symm⟩
  · cases h

theorem advBank_frame (s u : State) (h : advBank s = some u) : ∃ b k, u = setSelector b k s := by
  unfold advBank at h
  split at h
  · cases h
  · exact ⟨_, _, (Option.some.inj h).symm⟩

theorem advSlot_frame (s u : State) (h : advSlot s = some u) : ∃ b k, u = setSelector b k s := by
  unfold advSlot at h
  split at h
  · split at h
    · cases h
    · exact ⟨_, _, (Option.some.inj h).symm⟩
  · cases h

/-- A rotation phase that `ROT.ADV` changes is the one it names (R104). -/
theorem advanceRot_changed (i k : Fin 4) (rm : Int) (s : State) (h : (advanceRot i rm s).rot[k] ≠ s.rot[k]) :
    k = i := by
  by_contra hne
  exact h (advanceRot_other i k rm s (Ne.symm hne))

/-! ### What a generator reads (R33, R38) -/

/-- The advanced rotation phase depends on the configuration, the rotation value and the phase itself alone (R104). -/
theorem advanceRot_congr (i : Fin 4) (rm : Int) (s1 s2 : State) (hcfg : s2.cfg = s1.cfg)
    (hrot : s2.rot[i] = s1.rot[i]) :
    (advanceRot i rm s2).rot[i] = (advanceRot i rm s1).rot[i] := by
  simp only [advanceRot, setRot_rot_self, hcfg, hrot]

end Sys2Proof.Machine

open Sys2Proof Sys2Proof.Machine

/-- Settles O49: an operation's register writes keep the ranges, and so do a tick and a reset. -/
theorem everyOperationKeepsTheRanges : Obligations.EveryOperationKeepsTheRanges := by
  intro i s t hs h
  obtain ⟨w, rfl⟩ | rfl | ⟨r, u, rfl, hw⟩ := exec_next_writes i s t h
  · exact (exec_tick_keeps w s t hs h).1
  · obtain ⟨hcfg, rfl⟩ := exec_reset_next s t h
    exact inRange_resetRegisters s hcfg
  · exact hw.inRange hs

/-- Settles O48: a step is idle, a reset, which clears the guards, or a tick, which records a mode. -/
theorem stepKeepsTheInvariant : Obligations.StepKeepsTheInvariant := by
  intro s t hs h
  obtain ⟨hrange, -⟩ := (inv_iff s).mp hs
  obtain rfl | ⟨rest, h⟩ | ⟨w, rest, h⟩ := step_next s t h
  · exact hs
  · obtain ⟨hcfg, rfl⟩ := exec_reset_next _ t h
    exact (inv_iff _).mpr ⟨inRange_resetRegisters _ hcfg, rfl⟩
  · obtain ⟨hrange', hmode⟩ := exec_tick_keeps w (setPending rest s) t hrange h
    exact (inv_iff _).mpr ⟨hrange', guardsNeedMode_of_modeV t hmode⟩

/-- Settles O50: in each way an operation writes registers, the registers it changes are those R20 gives it. -/
theorem onlyTheNamedOperationsWrite : Obligations.OnlyTheNamedOperationsWrite := by
  intro i s t h htick hreset
  obtain ⟨w, rfl⟩ | rfl | ⟨r, u, rfl, hw⟩ := exec_next_writes i s t h
  · exact absurd rfl (htick w)
  · exact absurd rfl hreset
  cases hw with
  | none => simp
  | phase freq cv => simp [advancePhase]
  | rot k rm =>
    refine ⟨rfl, rfl, rfl, by simp [advanceRot], fun k' hk => ?_, by simp [advanceRot]⟩
    exact .inl ⟨rm, by rw [advanceRot_changed k k' rm s hk]⟩
  | fnRot =>
    refine ⟨rfl, rfl, rfl, by simp [advanceRot], fun k hk => ?_, by simp [advanceRot]⟩
    exact .inr (.inl ⟨advanceRot_changed 0 k _ s hk, rfl⟩)
  | meshRot j =>
    refine ⟨rfl, rfl, rfl, by simp [advanceRot], fun k hk => ?_, by simp [advanceRot]⟩
    exact .inr (.inr ⟨j, congrArg Fin.val (advanceRot_changed (meshRot j) k _ s hk), rfl⟩)
  | filter rx ry => simp [lpf]
  | routeAtt | routeOfs | routeOfs2 => simp [route_eq]
  | freeze a b => simp [freeze]
  | release a b => simp [release]
  | advOsc u hu => obtain ⟨b, k, rfl⟩ := advOsc_frame s u hu; simp
  | advBank u hu => obtain ⟨b, k, rfl⟩ := advBank_frame s u hu; simp
  | advSlot u hu => obtain ⟨b, k, rfl⟩ := advSlot_frame s u hu; simp

/-- Settles O51: each generator's result is a function of the configuration, `PH`, `MOD1`, `MOD2` and the advanced
rotation phase, which the premises make equal. -/
theorem generatorsDoNotInterfere : Obligations.GeneratorsDoNotInterfere := by
  intro s1 s2 hcfg hph hm1 hm2
  refine ⟨fun j => ⟨_, _, rfl, rfl, ?_⟩, fun hrot => ⟨_, _, exec_shapeFn s1, exec_shapeFn s2, ?_, ?_⟩, ?_⟩
  · simp only [answer_result, hcfg, hph, hm1, hm2]
  · simp only [answer_result, hcfg, hph, hm1, hm2, advanceRot_congr 0 _ s1 s2 hcfg hrot]
  · rw [hm2]; exact advanceRot_congr 0 _ s1 s2 hcfg hrot
  · intro j k t1 hk hrot h1
    obtain rfl : k = meshRot j := Fin.ext hk
    obtain ⟨q, hq, rfl⟩ := exec_shapeMesh_next j s1 t1 h1
    have hadv := advanceRot_congr (meshRot j) s1.mod2.toInt s1 s2 hcfg hrot
    have hq2 : rawMesh s2.cfg j s2.ph s2.mod1.toInt (advanceRot (meshRot j) s2.mod2.toInt s2).rot[meshRot j]
        = some q := by
      rw [hcfg, hph, hm1, hm2, hadv, hq]
    refine ⟨_, exec_shapeMesh j q s2 hq2, rfl, ?_⟩
    rw [hm2]; exact hadv

/-- Settles O45: the reset state is what `RESET` makes of its own registers, under a well-formed configuration. -/
theorem resetStateMeetsTheInvariant : Obligations.ResetStateMeetsTheInvariant :=
  ⟨(inv_iff _).mpr ⟨inRange_resetRegisters State.reset cfgWellFormed_testConfig, rfl⟩, rfl⟩

end

section
/-! PROOFS of the family `30_encoding.md`: the decoder and the encoder of each kind of word as one equivalence, `decode w = t`
exactly where `encode t = w`, and from it the round trips (R71, R75, R80 to R82); the output word of a tick (R78); the
expansion of a repeated line (R85). -/

namespace Sys2Proof

/-! ### Fields of a word as numbers -/

theorem extract_eq_of_toNat {n k : Nat} {v : BitVec n} {i : Nat} {x : BitVec k}
    (h : v.toNat / 2 ^ i % 2 ^ k = x.toNat) : v.extractLsb' i k = x :=
  BitVec.eq_of_toNat_eq ((extract_toNat v i k).trans h)

theorem bool_eq_of_toNat_eq : ∀ {a b : Bool}, a.toNat = b.toNat → a = b := by decide

theorem getLsbD_eq_of_toNat {n : Nat} {v : BitVec n} {i : Nat} {b : Bool}
    (h : v.toNat / 2 ^ i % 2 ^ 1 = b.toNat) : v.getLsbD i = b :=
  bool_eq_of_toNat_eq ((getLsbD_toNat v i).trans h)

/-- One bit of a word, as a word of one bit. -/
theorem ofBool_getLsbD {n : Nat} (v : BitVec n) (i : Nat) : BitVec.ofBool (v.getLsbD i) = v.extractLsb' i 1 :=
  (extract_eq_of_toNat (by rw [BitVec.toNat_ofBool, getLsbD_toNat])).symm

/-! ### The tick word (R71 to R75) -/

/-- The fields that R71 reads from a word, with the switch position beside them. -/
def tickFields (w : TickBits) (sw : Switch) : TickWord where
  freq := w.extractLsb' 0 16
  cv := w.extractLsb' 16 16
  ctl1 := w.extractLsb' 32 16
  aud1 := w.extractLsb' 48 16
  ctl2 := w.extractLsb' 64 16
  aud2 := w.extractLsb' 80 16
  sw := sw
  trigOsc := w.getLsbD 98
  trigBank := w.getLsbD 99
  trigSlot := w.getLsbD 100

theorem decodeTick_of_fields {w : TickBits} {sw : Switch} (hres : w.extractLsb' 101 27 = 0#27)
    (hsw : decodeSwitch (w.extractLsb' 96 2) = some sw) : decodeTick w = .ok (tickFields w sw) := by
  simp only [decodeTick, hres, hsw, ne_eq, not_true_eq_false, if_false, tickFields]

/-- A word that decodes has no reserved bit set and a switch position, and decodes to its fields (R75). -/
theorem decodeTick_ok {w : TickBits} {t : TickWord} (h : decodeTick w = .ok t) :
    w.extractLsb' 101 27 = 0#27 ∧ decodeSwitch (w.extractLsb' 96 2) = some t.sw ∧ tickFields w t.sw = t := by
  unfold decodeTick at h
  split at h
  · cases h
  next hres =>
    split at h
    · cases h
    next sw hsw =>
      cases h
      exact ⟨not_not.mp hres, hsw, rfl⟩

/-- The encoder leaves bits 127:101 zero (R71). -/
theorem encodeTick_reserved (t : TickWord) : (encodeTick t).extractLsb' 101 27 = 0#27 := by
  have hosc := t.trigOsc.toNat_lt
  have hbank := t.trigBank.toNat_lt
  have hslot := t.trigSlot.toNat_lt
  refine extract_eq_of_toNat ?_
  rw [encodeTick_toNat, BitVec.toNat_ofNat]
  omega

theorem encodeTick_switch (t : TickWord) : (encodeTick t).extractLsb' 96 2 = encodeSwitch t.sw := by
  refine extract_eq_of_toNat ?_
  rw [encodeTick_toNat]
  omega

/-- Every field stands in the encoded word where the decoder reads it (R71). -/
theorem tickFields_encodeTick (t : TickWord) : tickFields (encodeTick t) t.sw = t := by
  have hosc := t.trigOsc.toNat_lt
  have hbank := t.trigBank.toNat_lt
  have hslot := t.trigSlot.toNat_lt
  have hword := encodeTick_toNat t
  obtain ⟨freq, cv, ctl1, aud1, ctl2, aud2, sw, trigOsc, trigBank, trigSlot⟩ := t
  dsimp only at hosc hbank hslot hword
  simp only [tickFields, TickWord.mk.injEq, true_and]
  refine ⟨extract_eq_of_toNat ?_, extract_eq_of_toNat ?_, extract_eq_of_toNat ?_, extract_eq_of_toNat ?_,
    extract_eq_of_toNat ?_, extract_eq_of_toNat ?_, getLsbD_eq_of_toNat ?_, getLsbD_eq_of_toNat ?_,
    getLsbD_eq_of_toNat ?_⟩ <;> (rw [hword]; omega)

/-- The fields of a word with no reserved bit set, put side by side, are the word: the layout has no gap (R71). -/
theorem encodeTick_tickFields {w : TickBits} {sw : Switch} (hres : w.extractLsb' 101 27 = 0#27)
    (hsw : encodeSwitch sw = w.extractLsb' 96 2) : encodeTick (tickFields w sw) = w := by
  simp only [encodeTick, tickFields, ← hres, hsw, ofBool_getLsbD, BitVec.extractLsb'_append_extractLsb'_eq_extractLsb']
  exact BitVec.extractLsb'_eq_self

/-- The tick word's decoder and encoder say the same. -/
theorem decodeTick_eq_ok_iff (w : TickBits) (t : TickWord) : decodeTick w = .ok t ↔ encodeTick t = w := by
  constructor
  · intro h
    obtain ⟨hres, hsw, hfields⟩ := decodeTick_ok h
    rw [← hfields]
    exact encodeTick_tickFields hres (decodeSwitch_eq_some _ _ hsw)
  · rintro rfl
    have hsw : decodeSwitch ((encodeTick t).extractLsb' 96 2) = some t.sw := by
      rw [encodeTick_switch, decodeSwitch_encodeSwitch]
    rw [decodeTick_of_fields (encodeTick_reserved t) hsw, tickFields_encodeTick]

theorem tickWellFormed_iff (w : TickBits) :
    tickWellFormed w = true ↔ w.extractLsb' 101 27 = 0#27 ∧ w.extractLsb' 96 2 ≠ 3#2 := by
  simp only [tickWellFormed, Bool.and_eq_true, beq_iff_eq, bne_iff_ne]

/-- Code 3 alone names no switch position (R73). -/
theorem ne_three_iff_decodeSwitch (c : BitVec 2) : c ≠ 3#2 ↔ ∃ sw, decodeSwitch c = some sw := by
  rw [← Option.isSome_iff_exists]
  revert c; decide

/-- A tick word has a meaning exactly where it is well-formed (R75). -/
theorem tickWellFormed_iff_decodeTick (w : TickBits) : tickWellFormed w = true ↔ ∃ t, decodeTick w = .ok t := by
  rw [tickWellFormed_iff, ne_three_iff_decodeSwitch]
  constructor
  · rintro ⟨hres, sw, hsw⟩
    exact ⟨_, decodeTick_of_fields hres hsw⟩
  · rintro ⟨t, ht⟩
    obtain ⟨hres, hsw, -⟩ := decodeTick_ok ht
    exact ⟨hres, _, hsw⟩

/-! ### The generator descriptor (R80 to R82) -/

/-- The descriptor word of a generator, as the encoder gives it (`encode_generatorOp`). -/
def generatorDesc : Generator → DescBits
  | .fn => encodeDesc 0#2 0#2
  | .mesh j => encodeDesc 1#2 (BitVec.ofNat 2 j.val)
  | .wt j => encodeDesc 2#2 (BitVec.ofNat 2 j.val)

theorem encode_generatorOp (g : Generator) : encode (generatorOp g) = some (8, (generatorDesc g).toNat) := by
  cases g <;> rfl

theorem decodeInst_eq_some {c : BitVec 2} {j : Fin 3} (h : decodeInst c = some j) : BitVec.ofNat 2 j.val = c := by
  revert c j; decide

theorem encodeDesc_fields {d : DescBits} (h : d.extractLsb' 4 4 = 0#4) :
    encodeDesc (d.extractLsb' 0 2) (d.extractLsb' 2 2) = d := by
  simp only [encodeDesc, ← h, BitVec.extractLsb'_append_extractLsb'_eq_extractLsb']
  exact BitVec.extractLsb'_eq_self

theorem generatorDesc_of_decodeDesc {d : DescBits} {g : Generator} (h : decodeDesc d = .ok g) :
    generatorDesc g = d := by
  unfold decodeDesc at h
  split at h
  · cases h
  next hres =>
    rw [← encodeDesc_fields (not_not.mp hres)]
    dsimp only at h
    split at h
    next hkind =>
      split at h
      next hcode => cases h; rw [hkind, hcode, generatorDesc]
      · cases h
    split at h
    next hkind =>
      split at h
      next j hcode => cases h; rw [hkind, generatorDesc, decodeInst_eq_some hcode]
      · cases h
    split at h
    next hkind =>
      split at h
      next j hcode => cases h; rw [hkind, generatorDesc, decodeInst_eq_some hcode]
      · cases h
    · cases h

theorem decodeDesc_generatorDesc (g : Generator) : decodeDesc (generatorDesc g) = .ok g := by
  cases g with
  | fn => decide
  | mesh j => revert j; decide
  | wt j => revert j; decide

/-- The descriptor's decoder and encoder say the same. -/
theorem decodeDesc_eq_ok_iff (d : DescBits) (g : Generator) : decodeDesc d = .ok g ↔ generatorDesc g = d :=
  ⟨generatorDesc_of_decodeDesc, fun h => h ▸ decodeDesc_generatorDesc g⟩

/-- The seven generators (R120). -/
def generators : List Generator :=
  [.fn, .mesh 0, .mesh 1, .mesh 2, .wt 0, .wt 1, .wt 2]

theorem mem_generators (g : Generator) : g ∈ generators := by
  cases g with
  | fn => decide
  | mesh j => revert j; decide
  | wt j => revert j; decide

/-! ### Words of an operation (R77, R88) -/

/-- Only `TICK` and the three generator operations have a word (R77, R88). -/
theorem encode_eq_some {i : Instr} {n w : Nat} (h : encode i = some (n, w)) :
    (∃ t, i = .tick t ∧ n = 128 ∧ w = (encodeTick t).toNat)
      ∨ ∃ g, i = generatorOp g ∧ n = 8 ∧ w = (generatorDesc g).toNat := by
  have desc (g : Generator) (h : encode (generatorOp g) = some (n, w)) : n = 8 ∧ w = (generatorDesc g).toNat := by
    rw [encode_generatorOp] at h; cases h; exact ⟨rfl, rfl⟩
  cases i with
  | tick t => cases h; exact .inl ⟨t, rfl, rfl, rfl⟩
  | shapeFn => exact .inr ⟨.fn, rfl, desc .fn h⟩
  | shapeMesh j => exact .inr ⟨.mesh j, rfl, desc (.mesh j) h⟩
  | shapeWt j => exact .inr ⟨.wt j, rfl, desc (.wt j) h⟩
  | _ => cases h

theorem decodeTableWord_tick {w : TickBits} {t : TickWord} (h : decodeTick w = .ok t) :
    decodeTableWord 128 w.toNat = some (.tick t) := by
  simp [decodeTableWord, w.isLt, h]

theorem decodeTableWord_desc {d : DescBits} {g : Generator} (h : decodeDesc d = .ok g) :
    decodeTableWord 8 d.toNat = some (generatorOp g) := by
  simp [decodeTableWord, d.isLt, h]

/-- What an operation is encoded to, it is decoded from. -/
theorem decodeTableWord_of_encode {i : Instr} {n w : Nat} (h : encode i = some (n, w)) :
    decodeTableWord n w = some i := by
  obtain ⟨t, rfl, rfl, rfl⟩ | ⟨g, rfl, rfl, rfl⟩ := encode_eq_some h
  · exact decodeTableWord_tick ((decodeTick_eq_ok_iff _ t).mpr rfl)
  · exact decodeTableWord_desc (decodeDesc_generatorDesc g)

/-! ### The output word (R78) -/

/-- Bits 95:72 of an output word are zero. -/
theorem encodeOut_lt (x y : Word32) (bank slot : BitVec 4) : (encodeOut x y bank slot).toNat < 2 ^ 72 := by
  rw [encodeOut_toNat]; omega

end Sys2Proof

namespace Sys2Proof.Machine

/-! ### A repeated line (R85) -/

theorem copies_singleton (n : Nat) (e : HostEvent) : copies n [e] = List.replicate n e := by
  induction n with
  | zero => rfl
  | succ n ih => rw [copies, ih, List.replicate_succ, List.singleton_append]

theorem expand_line {l : TickLine} {t : TickWord} (h : assemble l = some t) :
    expand (.tick l .done) = some [.tick (encodeTick t)] := by
  simp only [expand, h]

end Sys2Proof.Machine

open Sys2Proof Sys2Proof.Machine

/-- Settles O55: by the kind of word the operation has, each kind's decoder inverting its encoder. -/
theorem decodeInvertsEncode : Obligations.DecodeInvertsEncode :=
  fun _ _ _ h => decodeTableWord_of_encode h

/-- Settles O42: the tick returns the encoded word of the registers it leaves, and each field reads back. -/
theorem outputWordCarriesFilterAndSelector : Obligations.OutputWordCarriesFilterAndSelector := by
  intro w s hstarted hcfg hsel
  obtain ⟨_, _, _, _, _, r, -, -, -, -, -, hexec⟩ := exec_tick_of_inRange w s hstarted hcfg hsel
  exact ⟨_, _, hexec, answer_result .., outX_encodeOut .., outY_encodeOut .., outBank_encodeOut .., outSlot_encodeOut ..,
    encodeOut_lt ..⟩

/-- Settles O56: R75's condition is the decoder's, and the fields of R71 leave no gap in the word. -/
theorem wellFormedTickWordsRoundTrip : Obligations.WellFormedTickWordsRoundTrip :=
  fun w => ⟨tickWellFormed_iff_decodeTick w, fun t => (decodeTick_eq_ok_iff w t).mp⟩

/-- Settles O57: the legal descriptors are those of the seven generators. -/
theorem sevenDescriptorsAreLegal : Obligations.SevenDescriptorsAreLegal := by
  intro d
  have hlist : generators.map generatorDesc = [0x00#8, 0x01#8, 0x05#8, 0x09#8, 0x02#8, 0x06#8, 0x0A#8] := by decide
  simp only [← hlist, List.mem_map, mem_generators, true_and, decodeDesc_eq_ok_iff]

/-- Settles O58: the four legal words are what the encoder gives; the two refused ones are computed. -/
theorem exampleTickWordsDecode : Obligations.ExampleTickWordsDecode :=
  ⟨decodeTableWord_of_encode (by decide), decodeTableWord_of_encode (by decide), decodeTableWord_of_encode (by decide),
    decodeTableWord_of_encode (by decide), by decide, by decide⟩

/-- Settles O59: the body stands for one event, and its copies are a replicated list, by induction on the count. -/
theorem repeatExpandsToCopies : Obligations.RepeatExpandsToCopies := by
  intro n l t h
  have hbody : expand (.repeated n (.tick l .done) .done) = some (List.replicate n (.tick (encodeTick t))) := by
    rw [expand, expand_line h]
    simp only [expand, copies_singleton, List.append_nil]
  rw [expand, hbody]

end

section
/-! PROOFS of the family `40_phase_engine.md`: the increment index of a clamped sum (R101, R102), and the rotation phase that
a generator owns, which is the only one a tick advances, by `ROT.ADV` (R104 to R106). -/

namespace Sys2Proof.Machine

/-! ### The increment index (R101, R102) -/

/-- The clamped sum is a 16-bit value of its own, so as a frequency with no CV it has the index of the sum. -/
theorem incIndex_clamped (freq cv : Half) :
    incIndex (BitVec.ofInt 16 (max 0 (min (freq.toInt + cv.toInt) 4095))) 0#16 = incIndex freq cv := by
  have hfreq : (BitVec.ofInt 16 (max 0 (min (freq.toInt + cv.toInt) 4095))).toInt
      = max 0 (min (freq.toInt + cv.toInt) 4095) := BitVec.toInt_ofInt_eq_self (by decide) (by omega) (by omega)
  apply Fin.ext
  rw [incIndex_val, incIndex_val, hfreq, BitVec.toInt_zero]
  omega

/-- The entry of `INC` that `PHASE.ADV` adds, in the numbers of R101. -/
theorem inc_at_clampedSum (c : Cfg) (freq cv : Half) :
    c.inc.toList[(max 0 (min (freq.toInt + cv.toInt) 4095)).toNat]? = some (readInc c (incIndex freq cv)) := by
  rw [← incIndex_val]
  exact readInc_mem c _

/-! ### What slot F leaves unchanged of the phases and their operand (R181) -/

@[simp] theorem lpf_ph (q : Pt2) (s : State) : (lpf q s).ph = s.ph := rfl
@[simp] theorem lpf_rot (q : Pt2) (s : State) : (lpf q s).rot = s.rot := rfl
@[simp] theorem lpf_mod2 (q : Pt2) (s : State) : (lpf q s).mod2 = s.mod2 := rfl

/-! ### The rotation phases (R104, R105) -/

/-- The rotation phase a generator owns; a wavetable instance owns none (R22, R105). -/
def ownRot : Generator → Option (Fin 4)
  | .fn => some 0
  | .mesh j => some (meshRot j)
  | .wt _ => none

theorem ownRot_eq_some_iff (g : Generator) (k : Fin 4) :
    ownRot g = some k ↔ g = .fn ∧ k = 0 ∨ ∃ j : Fin 3, g = .mesh j ∧ k.val = 1 + j.val := by
  cases g with
  | fn => simp [ownRot, eq_comm (a := k)]
  | mesh j =>
    have hindex : meshRot j = k ↔ k.val = 1 + j.val := Fin.ext_iff.trans eq_comm
    simpa [ownRot] using hindex
  | wt j => simp [ownRot]

/-- The rotation phases after a generator are those after `ROT.ADV` on its own one by `MOD2`; with none of its own, they
are as before (R105). -/
theorem generated_rot (g : Generator) (s : State) (r : State × Pt2) (h : generated g s = some r) :
    r.1.rot = match ownRot g with
      | some i => (advanceRot i s.mod2.toInt s).rot
      | none => s.rot := by
  cases g with
  | fn => cases h; rfl
  | mesh j =>
    obtain ⟨q, -, hnext⟩ := exec_shapeMesh_next j s _ (generated_exec s (.mesh j) r h)
    simpa [ownRot] using congrArg State.rot hnext
  | wt j => cases h; rfl

/-- A generator leaves the rotation phases it does not own (R105). -/
theorem generated_rot_other (g : Generator) (s : State) (r : State × Pt2) (h : generated g s = some r) (k : Fin 4)
    (hk : ownRot g ≠ some k) : r.1.rot[k] = s.rot[k] := by
  rw [generated_rot g s r h]
  cases hg : ownRot g with
  | none => rfl
  | some i => exact advanceRot_other i k _ s fun e => hk (hg.trans (congrArg some e))

/-- A generator advances the rotation phase it owns as `ROT.ADV` does (R104, R105). -/
theorem generated_rot_own (g : Generator) (s : State) (r : State × Pt2) (h : generated g s = some r) (k : Fin 4)
    (hk : ownRot g = some k) : r.1.rot[k] = (advanceRot k s.mod2.toInt s).rot[k] := by
  rw [generated_rot g s r h, hk]

end Sys2Proof.Machine

open Sys2Proof Sys2Proof.Machine

/-- Settles O1: the entry read is the one at the clamped sum, and the sum of two phases wraps. -/
theorem phaseAdvAddsIndexedIncrement : Obligations.PhaseAdvAddsIndexedIncrement := fun freq cv s =>
  ⟨_, _, inc_at_clampedSum s.cfg freq cv, exec_phaseAdv freq cv s, BitVec.toNat_add .., rfl⟩

/-- Settles O2: `PHASE.ADV` reads its operands through the increment index alone. -/
theorem phaseAdvClampLaw : Obligations.PhaseAdvClampLaw := by
  intro freq cv s
  simp only [exec_phaseAdv, advancePhase, incIndex_clamped]

/-- Settles O3: the rotation phases after `ROT.ADV`, the named one and the others. -/
theorem rotAdvAddsScaledDistance : Obligations.RotAdvAddsScaledDistance := fun i rm s =>
  ⟨_, exec_rotAdv i rm s, advanceRot_toNat i rm s, fun k hk => advanceRot_other i k rm s hk.symm, rfl⟩

/-- Settles O40: slot P advances `PH`, and after it only the generator, which the descriptor at the final selection names,
touches a rotation phase: its own, by the `MOD2` routed before it. -/
theorem tickAdvancesOnlyTheActiveRotation : Obligations.TickAdvancesOnlyTheActiveRotation := by
  intro w s hstarted hcfg hsel
  obtain ⟨b, k, r0, d, g, r, -, -, hdesc, hg, hgen, hexec⟩ := exec_tick_of_inRange w s hstarted hcfg hsel
  have hframe := generated_frame g _ r hgen
  have hph : r.1.ph = s.ph + readInc s.cfg (incIndex w.freq w.cv) := by rw [hframe]; simp
  have hmod2 : r.1.mod2 = (beforeShape w b k s).mod2 := by rw [hframe]; simp
  have hread : readDesc r.1.cfg r.1.bank.toNat r.1.slot.toNat = some d := by rw [hframe]; simpa using hdesc
  refine ⟨readInc s.cfg (incIndex w.freq w.cv), d, _, hexec, inc_at_clampedSum s.cfg w.freq w.cv, ?_, hread, ?_⟩
  · simp only [answer_ph, lpf_ph, hph, BitVec.toNat_add]
  · intro i
    simp only [answer_rot, answer_mod2, lpf_rot, lpf_mod2, hmod2, hg, Except.ok.injEq, ← ownRot_eq_some_iff]
    split
    next hown =>
      rw [generated_rot_own g _ r hgen i hown, advanceRot_toNat]
      simp
    next hother =>
      rw [generated_rot_other g _ r hgen i hother]
      simp

end

section
/-! PROOFS of the family `41_lut_read.md`: consecutive phases as two consecutive weights of one segment, the wrap among them,
and so the continuity of every lookup (R115, R116). -/

namespace Sys2Proof.Machine

/-! ### The next phase: one more of the weight, or the next entry at weight 0 (R111) -/

theorem phase_succ_toNat (p : Phase) : (p + 1#32).toNat = (p.toNat + 1) % 4294967296 :=
  BitVec.toNat_add ..

theorem lutIndex_succ_inside (t : SampleTable) (p : Phase) (h : lutWeight t p + 1 < 2 ^ (32 - t.indexBits)) :
    lutIndex t (p + 1#32) = lutIndex t p := by
  have hp := p.isLt
  apply Fin.ext
  rw [lutIndex_val, lutIndex_val, phase_succ_toNat]
  cases t <;> simp only [lutWeight, SampleTable.indexBits] at h ⊢ <;> omega

theorem lutWeight_succ_inside (t : SampleTable) (p : Phase) (h : lutWeight t p + 1 < 2 ^ (32 - t.indexBits)) :
    lutWeight t (p + 1#32) = lutWeight t p + 1 := by
  simp only [lutWeight, phase_succ_toNat] at h ⊢
  cases t <;> simp only [SampleTable.indexBits] at h ⊢ <;> omega

theorem lutIndex_succ_atEnd (t : SampleTable) (p : Phase) (h : lutWeight t p + 1 = 2 ^ (32 - t.indexBits)) :
    lutIndex t (p + 1#32) = lutNext t (lutIndex t p) := by
  have hp := p.isLt
  apply Fin.ext
  simp only [lutNext, lutIndex_val, phase_succ_toNat]
  cases t <;> simp only [lutWeight, SampleTable.indexBits] at h ⊢ <;> omega

theorem lutWeight_succ_atEnd (t : SampleTable) (p : Phase) (h : lutWeight t p + 1 = 2 ^ (32 - t.indexBits)) :
    lutWeight t (p + 1#32) = 0 := by
  simp only [lutWeight, phase_succ_toNat] at h ⊢
  cases t <;> simp only [SampleTable.indexBits] at h ⊢ <;> omega

/-- The lookup at the next phase interpolates between the same two entries, one step further: at the end of the segment,
the last entry's among them, the full weight gives the entry that the next phase reads (R115). -/
theorem lutRead_succ (c : Cfg) (t : SampleTable) (p : Phase) :
    lutRead c t (p + 1#32) = interpolate (readSample c t (lutIndex t p)) (readSample c t (lutNext t (lutIndex t p)))
      (lutWeight t p + 1) (32 - t.indexBits) := by
  rcases Nat.lt_or_eq_of_le (Nat.succ_le_of_lt (lutWeight_lt t p)) with hinside | hend
  · simp only [lutRead, lutIndex_succ_inside t p hinside, lutWeight_succ_inside t p hinside, Nat.cast_succ]
  · have hfull : (lutWeight t p : Int) + 1 = 2 ^ (32 - t.indexBits) := by exact_mod_cast hend
    rw [hfull, interpolate_full]
    simp only [lutRead, lutIndex_succ_atEnd t p hend, lutWeight_succ_atEnd t p hend, Nat.cast_zero, interpolate_zero]

/-! ### Continuity (R115, R116) -/

/-- One more of the weight moves the result by at most 1, where the two values are within `2^f` of each other (R116). -/
theorem interpolate_step (a b w : Int) (f : Nat) (h1 : -2 ^ f ≤ b - a) (h2 : b - a ≤ 2 ^ f) :
    interpolate a b w f - interpolate a b (w + 1) f ≤ 1 ∧ interpolate a b (w + 1) f - interpolate a b w f ≤ 1 := by
  have hstep := floor_step (b - a) w (2 ^ f) (by positivity) h1 h2
  simp only [interpolate, asr_eq]
  omega

/-- Two 16-bit entries are closer than the units of weight in a segment (R115). -/
theorem readSample_sub_bounds (c : Cfg) (t : SampleTable) (i k : Fin (2 ^ t.indexBits)) :
    -2 ^ (32 - t.indexBits) ≤ readSample c t k - readSample c t i
    ∧ readSample c t k - readSample c t i ≤ 2 ^ (32 - t.indexBits) := by
  have hi := readSample_bounds c t i
  have hk := readSample_bounds c t k
  have hunits : (65536 : Int) ≤ 2 ^ (32 - t.indexBits) := by cases t <;> simp [SampleTable.indexBits]
  omega

theorem lutRead_succ_close (c : Cfg) (t : SampleTable) (p : Phase) :
    lutRead c t p - lutRead c t (p + 1#32) ≤ 1 ∧ lutRead c t (p + 1#32) - lutRead c t p ≤ 1 := by
  obtain ⟨hlow, hhigh⟩ := readSample_sub_bounds c t (lutIndex t p) (lutNext t (lutIndex t p))
  rw [lutRead_succ]
  exact interpolate_step _ _ _ _ hlow hhigh

end Sys2Proof.Machine

open Sys2Proof Sys2Proof.Machine

/-- Settles O4: `LUT.READ` answers the lookup, whose two entries and value are those of R111 for either kind of table. -/
theorem lutReadInterpolatesExactly : Obligations.LutReadInterpolatesExactly := by
  intro p s
  constructor
  · obtain ⟨a, b, ha, hb, hvalue⟩ := lutRead_sin s.cfg p
    exact ⟨a, b, ha, hb, by rw [exec_lutRead, hvalue]⟩
  · intro j side channel
    obtain ⟨a, b, ha, hb, hvalue⟩ := lutRead_wt s.cfg p j side channel
    exact ⟨a, b, ha, hb, by rw [exec_lutRead, hvalue]⟩

/-- Settles O6: the two phases interpolate between the same two entries at consecutive weights. -/
theorem lutReadIsContinuous : Obligations.LutReadIsContinuous := fun t p s =>
  ⟨_, _, exec_lutRead t p s, exec_lutRead t (p + 1#32) s, lutRead_succ_close s.cfg t p⟩

/-- Settles O7: the value is an interpolation of the two entries with a weight below `2^23`. -/
theorem lutSinStaysBetweenEntries : Obligations.LutSinStaysBetweenEntries := by
  intro p s
  obtain ⟨a, b, ha, hb, hvalue⟩ := lutRead_sin s.cfg p
  have hinterp : lutRead s.cfg .sin p = interpolate a.toInt b.toInt (p.toNat % 8388608 : Nat) 23 := hvalue
  obtain ⟨hlow, hhigh⟩ := interpolate_between a.toInt b.toInt (p.toNat % 8388608 : Nat) 23 (by omega) (by omega)
  rw [← hinterp] at hlow hhigh
  refine ⟨a, b, _, ha, hb, exec_lutSin p s, hlow, hhigh, fun hweight => ?_⟩
  rw [hinterp, hweight, Nat.cast_zero, interpolate_zero]

/-- Settles O5: both are the sine lookup, the cosine's phase a quarter turn later modulo `2^32`. -/
theorem lutSinCosReadTheSineTable : Obligations.LutSinCosReadTheSineTable := by
  intro p s
  refine ⟨_, _, exec_lutRead .sin p s, exec_lutSin p s, exec_lutRead .sin _ s, ?_⟩
  rw [exec_lutCos, quarter_turn]

end

section
/-! PROOFS of the family `42_shape_function.md`: the growth-scaled phase at its two ends (R122), the flip by half of the
cycle (R125), a path's point 0 (R146), and a tick that triggers no selector operation, with the rotation at its centre
(R129). -/

namespace Sys2Proof.Machine

/-! ### Growth (R122, R128) -/

/-- The growth-scaled phase, in the numbers of R122. -/
theorem growScale_toInt (c : Cfg) (p : Phase) (gm : Int) :
    ((growScale c p gm).toNat : Int) = (p.toNat : Int) * max (c.growMin.val : Int) (min gm 4096) / 4096 := by
  have hnonneg := (growValue_bounds c gm).1
  rw [growScale_toNat, ← growValue_eq]
  push_cast
  rw [Int.toNat_of_nonneg hnonneg]

theorem growScale_le (c : Cfg) (p : Phase) (gm : Int) : (growScale c p gm).toNat ≤ p.toNat := by
  have hmax : (growValue c gm).toNat ≤ 4096 := by have := growValue_bounds c gm; omega
  rw [growScale_toNat]
  exact Nat.div_le_of_le_mul (Nat.mul_comm 4096 _ ▸ Nat.mul_le_mul_left _ hmax)

/-- At the maximum growth and above it the phase is kept whole. -/
theorem growScale_full (c : Cfg) (p : Phase) (gm : Int) (h : 4096 ≤ gm) : growScale c p gm = p := by
  have hvalue : growValue c gm = 4096 := by have := c.growMin.isLt; rw [growValue_eq]; omega
  apply BitVec.eq_of_toNat_eq
  rw [growScale_toNat, hvalue]
  exact Nat.mul_div_cancel _ (by decide)

/-- With no growth minimum, growth at or below 0 collapses every phase to 0 (R128). -/
theorem growScale_collapsed (c : Cfg) (p : Phase) (gm : Int) (hmin : c.growMin = 0) (h : gm ≤ 0) :
    growScale c p gm = 0#32 := by
  have hvalue : growValue c gm = 0 := by rw [growValue_eq, hmin, Fin.val_zero]; omega
  apply BitVec.eq_of_toNat_eq
  rw [growScale_toNat, hvalue, Int.toNat_zero, Nat.mul_zero, Nat.zero_div, BitVec.toNat_zero]

/-! ### The arc, the flip and the rotation (R124 to R126) -/

/-- The arc's point, in the numbers of R124. -/
theorem fnArc_eq (c : Cfg) (gp : Phase) : fnArc c gp =
    let arc := readArc c (arcIndex gp)
    let th := arcAngle arc (arcPosition gp)
    ⟨arc.cx.toInt + arc.rad.toInt * lutCos c th / 2 ^ c.sinShift.val,
     arc.cy.toInt + arc.rad.toInt * lutSin c th / 2 ^ c.sinShift.val⟩ := by
  simp only [fnArc, asr_eq]

/-- The rotated point, in the numbers of R126. -/
theorem rot2d_eq (c : Cfg) (q : Pt2) (a : Phase) : rot2d c q a =
    ⟨(q.x * lutCos c a - q.y * lutSin c a) / 2 ^ c.sinShift.val,
     (q.x * lutSin c a + q.y * lutCos c a) / 2 ^ c.sinShift.val⟩ := by
  simp only [rot2d, asr_eq]

theorem fnFlip_firstHalf (c : Cfg) (p : Phase) (q : Pt2) (h : p.toNat < 2147483648) : fnFlip c p q = q := by
  rw [fnFlip, phase_top_bit, decide_eq_false (by omega), if_neg Bool.false_ne_true]

theorem fnFlip_secondHalf (c : Cfg) (p : Phase) (q : Pt2) (h : 2147483648 ≤ p.toNat) : fnFlip c p q =
    ⟨(if c.fnFlipX then -1 else 1) * q.x, (if c.fnFlipY then -1 else 1) * q.y⟩ := by
  have hsign (b : Bool) (v : Int) : (if b then -v else v) = (if b then -1 else 1) * v := by cases b <;> simp
  rw [fnFlip, phase_top_bit, decide_eq_true h, if_pos rfl,
    hsign c.fnFlipX q.x, hsign c.fnFlipY q.y]

/-- The flip depends on the phase only through its half of the cycle. -/
theorem fnFlip_congr_half (c : Cfg) (p1 p2 : Phase) (q : Pt2)
    (h : p2.toNat < 2147483648 ↔ p1.toNat < 2147483648) : fnFlip c p2 q = fnFlip c p1 q := by
  rcases lt_or_ge p1.toNat 2147483648 with h1 | h1
  · rw [fnFlip_firstHalf c p1 q h1, fnFlip_firstHalf c p2 q (h.mpr h1)]
  · rw [fnFlip_secondHalf c p1 q h1, fnFlip_secondHalf c p2 q (by omega)]

/-! ### The path at phase 0 (R146) -/

/-- At phase 0 the segment and the weight are 0, so the path gives its point 0. -/
theorem pathInterp_zero (c : Cfg) (j : Fin 3) (a : PathPoint) (h : readPath c j 0 = some a) :
    pathInterp c j 0#32 = some ⟨a.x.toInt, a.y.toInt, a.z.toInt⟩ := by
  have hpoints : 1 ≤ pathLen c j := (List.getElem?_eq_some_iff.mp h).1
  have hseg : segIndex (pathLen c j) 0#32 = 0 := by simp [segIndex]
  have hweight : segWeight (pathLen c j) 0#32 = 0 := by simp [segWeight]
  obtain ⟨a', b, ha, -, hinterp⟩ := pathInterp_of_points c j 0#32 hpoints
  rw [hseg, h, Option.some.injEq] at ha
  rw [hinterp, hweight, ha]
  simp only [Nat.cast_zero, interpolate_zero]

/-! ### The rotation at its centre (R104, R129) -/

theorem rotDelta_centre (c : Cfg) : rotDelta c 2048 = 0#32 := by
  simp [rotDelta, rotValue, clamp, cut32]

/-- The centre of the rotation control moves no rotation phase. -/
theorem advanceRot_centre (i : Fin 4) (s : State) : advanceRot i 2048 s = s := by
  simp [advanceRot, rotDelta_centre, setRot]

/-! ### A tick that triggers no selector operation (R76, R190) -/

theorem route_answer (m : RouterMode) (ctl1 ctl2 cv1 aud1 aud2 : Half) (r : OpResult) (s : State) :
    route m ctl1 ctl2 cv1 aud1 aud2 (answer r s) = answer r (route m ctl1 ctl2 cv1 aud1 aud2 s) := by
  rw [route_eq, route_eq]
  rfl

/-- With no trigger bit set, slots P, M and S leave the selection as it is. -/
theorem tickOps_of_noTrigger (w : TickWord) (s : State) (hosc : w.trigOsc = false) (hbank : w.trigBank = false)
    (hslot : w.trigSlot = false) :
    ∃ r, runOps (tickOps w) s = .next (answer r (beforeShape w s.bank s.slot s)) := by
  have hops : tickOps w = [.phaseAdv w.freq w.cv, routeOp w] := by simp [tickOps, hosc, hbank, hslot]
  have hselected : beforeShape w s.bank s.slot s
      = route (switchMode w.sw) w.ctl1 w.ctl2 0#16 w.aud1 w.aud2 (advancePhase w.freq w.cv s) := by
    rw [beforeShape, route_eq]
    rfl
  rw [hops, runOps, exec_phaseAdv, andThen_next, runOps_singleton, ← routeSlot_exec, routeSlot_eq, route_answer,
    hselected]
  exact ⟨_, rfl⟩

theorem lpf_answer (q : Pt2) (r : OpResult) (s : State) : lpf q (answer r s) = answer r (lpf q s) := rfl

/-- Slots G and F of a tick, from the state its slots P, M and S leave and the generator selected there. -/
theorem exec_tick_of_generated (w : TickWord) (s u : State) (d : DescBits) (g : Generator) (r : State × Pt2)
    (hstarted : s.started = true) (hcfg : cfgWellFormed s.cfg = true) (hops : runOps (tickOps w) s = .next u)
    (hdesc : readDesc u.cfg u.bank.toNat u.slot.toNat = some d) (hg : decodeDesc d = .ok g)
    (hgen : generated g u = some r) :
    exec (.tick w) s = .next (answer (.outWord (outputWord (lpf r.2 r.1))) (lpf r.2 r.1)) := by
  rw [exec_tick w s hstarted hcfg, tickSlots_runOps, hops, andThen_next, generateAndFilter]
  exact withGenerator_eq u d g _ hdesc hg r hgen

/-- A free channel carries its formula's value after slot M (R162). -/
theorem beforeShape_mod1_of_free (w : TickWord) (b k : BitVec 4) (s : State)
    (h : guarded1 (switchMode w.sw) w.ctl1 s = false) :
    (beforeShape w b k s).mod1.toInt = modFormula s.cfg (switchMode w.sw) w.ctl1 w.aud1 := by
  have hfree : guarded1 (switchMode w.sw) w.ctl1 (advancePhase w.freq w.cv s) = false := h
  rw [beforeShape, route_eq]
  simp only [setSelector_mod1, hfree]
  exact modFormula_not_cut ..

theorem beforeShape_mod2_of_free (w : TickWord) (b k : BitVec 4) (s : State)
    (h : guarded2 (switchMode w.sw) w.ctl2 s = false) :
    (beforeShape w b k s).mod2.toInt = modFormula s.cfg (switchMode w.sw) w.ctl2 w.aud2 := by
  have hfree : guarded2 (switchMode w.sw) w.ctl2 (advancePhase w.freq w.cv s) = false := h
  rw [beforeShape, route_eq]
  simp only [setSelector_mod2, hfree]
  exact modFormula_not_cut ..

/-! ### The end-to-end scenario (R129) -/

theorem shapeFn_eq (s : State) : shapeFn s = (advanceRot 0 s.mod2.toInt s,
    rawFn s.cfg s.ph s.mod1.toInt (advanceRot 0 s.mod2.toInt s).rot[(0 : Fin 4)]) := rfl

/-- With full growth and the rotation at its centre, `SHAPE.FN` is the rotated, flipped arc at the phase itself, and no
register moves. -/
theorem shapeFn_of_fullGrowth_centre (s : State) (hgrowth : s.mod1.toInt = 4096) (hcentre : s.mod2.toInt = 2048) :
    shapeFn s = (s, rot2d s.cfg (fnFlip s.cfg s.ph (fnArc s.cfg s.ph)) s.rot[(0 : Fin 4)]) := by
  rw [shapeFn_eq, hcentre, advanceRot_centre, rawFn, growScale_full s.cfg s.ph _ hgrowth.ge]

/-- The tick word of the scenario: offset mode, growth control 4096, rotation control 2048, no trigger. -/
def scenarioWord : TickWord where
  freq := 2048#16
  cv := 0#16
  ctl1 := 4096#16
  aud1 := 0#16
  ctl2 := 2048#16
  aud2 := 0#16
  sw := .ofs
  trigOsc := false
  trigBank := false
  trigSlot := false

/-- The modulation registers that the scenario's word routes where no channel is guarded and no mode change is seen. -/
theorem scenario_modulation (b k : BitVec 4) (s : State) (hg1 : s.g1 = false) (hg2 : s.g2 = false)
    (hmode : s.modeV = true → s.mode = .offset) :
    (beforeShape scenarioWord b k s).mod1.toInt = 4096 ∧ (beforeShape scenarioWord b k s).mod2.toInt = 2048 := by
  have hsame : modeChanged .offset s = false := by
    rw [Bool.eq_false_iff, Ne, modeChanged_eq_true_iff]
    exact fun ⟨hvalid, hdiffers⟩ => hdiffers (hmode hvalid)
  have hfree1 : guarded1 (switchMode scenarioWord.sw) scenarioWord.ctl1 s = false := by
    simp [guarded1, scenarioWord, switchMode, hsame, hg1]
  have hfree2 : guarded2 (switchMode scenarioWord.sw) scenarioWord.ctl2 s = false := by
    simp [guarded2, scenarioWord, switchMode, hsame, hg2]
  exact ⟨beforeShape_mod1_of_free scenarioWord b k s hfree1, beforeShape_mod2_of_free scenarioWord b k s hfree2⟩

/-- The scenario's tick: the filter runs on the raw pair of the arc at the phase that slot P leaves, under the rotation phase
of before the tick. -/
theorem exec_scenarioTick (s : State) (hstarted : s.started = true) (hcfg : cfgWellFormed s.cfg = true)
    (hbank : s.bank = 0#4) (hslot : s.slot = 0#4) (hg1 : s.g1 = false) (hg2 : s.g2 = false)
    (hmode : s.modeV = true → s.mode = .offset) (u : State) (hu : u = beforeShape scenarioWord s.bank s.slot s) :
    ∃ r, exec (.tick scenarioWord) s = .next (answer r
      (lpf (rot2d s.cfg (fnFlip s.cfg u.ph (fnArc s.cfg u.ph)) s.rot[(0 : Fin 4)]) u)) := by
  obtain ⟨r, hops⟩ := tickOps_of_noTrigger scenarioWord s rfl rfl rfl
  obtain ⟨hmod1, hmod2⟩ := scenario_modulation s.bank s.slot s hg1 hg2 hmode
  have hdesc : readDesc s.cfg s.bank.toNat s.slot.toNat = some (generatorDesc .fn) := by
    rw [hbank, hslot]
    exact structureOk_firstDesc s.cfg (cfgWellFormed_structure s.cfg hcfg)
  have hucfg : u.cfg = s.cfg := by rw [hu, beforeShape_cfg]
  have hurot : u.rot = s.rot := by rw [hu, beforeShape_rot]
  have hudesc : readDesc u.cfg u.bank.toNat u.slot.toNat = some (generatorDesc .fn) := by
    rw [hu, beforeShape_cfg, beforeShape_bank, beforeShape_slot, hdesc]
  rw [← hu] at hops hmod1 hmod2
  have hshape := shapeFn_of_fullGrowth_centre (answer r u) hmod1 hmod2
  simp only [answer_cfg, answer_ph, answer_rot, hucfg, hurot] at hshape
  rw [exec_tick_of_generated scenarioWord s (answer r u) _ .fn _ hstarted hcfg hops hudesc
    (decodeDesc_generatorDesc .fn) (congrArg some hshape), lpf_answer, answer_answer]
  exact ⟨_, rfl⟩

end Sys2Proof.Machine

open Sys2Proof Sys2Proof.Machine

/-- Settles O8: the product is not cut, and a growth of 4096 over 4096 keeps the phase. -/
theorem growScaleMultipliesBySaturatedGrowth : Obligations.GrowScaleMultipliesBySaturatedGrowth := fun p gm s =>
  ⟨_, exec_growScale p gm s, growScale_toInt s.cfg p gm, growScale_le s.cfg p gm, growScale_full s.cfg p gm⟩

/-- Settles O13: both phases collapse to 0 before the arc, so only the flip sees them, and it sees one half. -/
theorem collapsedFnShapeHasTwoPoints : Obligations.CollapsedFnShapeHasTwoPoints := by
  intro s1 s2 hcfg hmin hgrowth1 hgrowth2 hmod2 hrot hhalf
  refine ⟨_, _, exec_shapeFn s1, exec_shapeFn s2, ?_⟩
  have hadvanced := advanceRot_congr 0 s1.mod2.toInt s1 s2 hcfg hrot
  simp only [answer_result, rawFn, hcfg, hmod2, hadvanced, growScale_collapsed s1.cfg _ _ hmin hgrowth1,
    growScale_collapsed s1.cfg _ _ hmin hgrowth2, fnFlip_congr_half s1.cfg s1.ph s2.ph _ hhalf]

/-- Settles O18: the collapsed phase is 0, and there the path's segment and weight are 0. -/
theorem collapsedMeshPathIsPointZero : Obligations.CollapsedMeshPathIsPointZero := by
  intro j p gm a s hmin hgrowth hpoint
  refine ⟨?_, exec_pathInterp j 0#32 _ s (pathInterp_zero s.cfg j a hpoint)⟩
  rw [exec_growScale, growScale_collapsed s.cfg p gm hmin hgrowth]

/-- Settles O9: the record read is the section's, and the point is the two lookups at the arc's angle. -/
theorem fnArcTracesTheSectionsArc : Obligations.FnArcTracesTheSectionsArc := by
  intro gp s
  refine ⟨readArc s.cfg (arcIndex gp), _, _, ?_, exec_lutCos _ s, exec_lutSin _ s, ?_⟩
  · rw [← arcIndex_val]
    exact readArc_mem s.cfg (arcIndex gp)
  · rw [exec_fnArc, fnArc_eq]
    rfl

/-- Settles O10: one clause for each half of the cycle. -/
theorem fnFlipMirrorsTheSecondHalf : Obligations.FnFlipMirrorsTheSecondHalf := fun p x0 y0 s =>
  ⟨fun hfirst => by rw [exec_fnFlip, fnFlip_firstHalf s.cfg p _ hfirst],
    fun hsecond => by rw [exec_fnFlip, fnFlip_secondHalf s.cfg p _ hsecond]⟩

/-- Settles O11: the two lookups at the angle, and each sum divided once. -/
theorem rot2dRotatesCounterClockwise : Obligations.Rot2dRotatesCounterClockwise := by
  intro x1 y1 a s
  refine ⟨_, _, exec_lutCos a s, exec_lutSin a s, ?_⟩
  rw [exec_rot2d, rot2d_eq]
  rfl

/-- Settles O12: `SHAPE.FN` is built from the functions its sub-operations answer with. -/
theorem shapeFnIsItsSubOperations : Obligations.ShapeFnIsItsSubOperations := fun s =>
  ⟨_, _, _, _, _, exec_growScale s.ph s.mod1.toInt s, exec_fnArc _ s, exec_fnFlip s.ph _ _ s,
    exec_rotAdv 0 s.mod2.toInt s, exec_rot2d _ _ _ _, exec_shapeFn s⟩

/-- Settles O43: slots P, M and S route full growth and the centre of the rotation and keep the selection, where every
well-formed layout has the function-defined generator; the filter then sees the registers it had before the tick. -/
theorem endToEndTick : Obligations.EndToEndTick := by
  intro s hstarted hcfg hbank hslot hg1 hg2 hmode
  obtain ⟨u, hu⟩ : ∃ u, u = beforeShape scenarioWord s.bank s.slot s := ⟨_, rfl⟩
  obtain ⟨r, hexec⟩ := exec_scenarioTick s hstarted hcfg hbank hslot hg1 hg2 hmode u hu
  obtain ⟨hmod1, hmod2⟩ := scenario_modulation s.bank s.slot s hg1 hg2 hmode
  have hph : u.ph = s.ph + readInc s.cfg (incIndex 2048#16 0#16) := by rw [hu, beforeShape_ph]; rfl
  have hrot : u.rot = s.rot := by rw [hu, beforeShape_rot]
  have hfilter (q : Pt2) : (lpf q u).fx = (lpf q s).fx ∧ (lpf q u).fy = (lpf q s).fy := by simp [hu, lpf]
  have hubank : u.bank = 0#4 := by rw [hu, beforeShape_bank, hbank]
  have huslot : u.slot = 0#4 := by rw [hu, beforeShape_slot, hslot]
  rw [← hu] at hmod1 hmod2
  exact ⟨_, _, _, _, _, _, hexec, inc_at_clampedSum s.cfg 2048#16 0#16, hph, hmod1, hmod2, hrot, hubank, huslot,
    exec_fnArc u.ph s, exec_fnFlip u.ph _ _ s, exec_rot2d _ _ _ s, exec_lpfStep _ _ s, hfilter _⟩

end

section
/-! PROOFS of the family `43_shape_mesh.md`: the interpolated path point, the rotation about the y axis, the projection and
the gain in the numbers of R141 and R143 to R145, and the mesh-projected generator's raw pair from its path point (R142). -/

namespace Sys2Proof.Machine

/-- The interpolation, as one floored division. -/
theorem interpolate_eq (a b w : Int) (f : Nat) : interpolate a b w f = a + (b - a) * w / 2 ^ f := by
  rw [interpolate, asr_eq]

/-- The rotated point, in the numbers of R143. -/
theorem rot3dY_eq (c : Cfg) (q : Pt3) (a : Phase) : rot3dY c q a =
    ⟨(q.x * lutCos c a + q.z * lutSin c a) / 2 ^ c.sinShift.val, q.y,
     (q.z * lutCos c a - q.x * lutSin c a) / 2 ^ c.sinShift.val⟩ := by
  simp only [rot3dY, asr_eq]

/-- The projected point, in the numbers of R144. -/
theorem isoProj_eq (c : Cfg) (q : Pt3) : isoProj c q = ⟨q.x, q.y + c.isoK.toInt * q.z / 2 ^ c.isoShift.val⟩ := by
  simp only [isoProj, asr_eq]

/-- The scaled point, in the numbers of R145. -/
theorem meshScale_eq (c : Cfg) (q : Pt2) : meshScale c q =
    ⟨q.x * c.meshGain.toInt / 2 ^ c.meshShift.val, q.y * c.meshGain.toInt / 2 ^ c.meshShift.val⟩ := by
  simp only [meshScale, asr_eq]

/-- The raw pair is the projection of the path point at the growth-scaled phase (R142). -/
theorem rawMesh_of_pathInterp (c : Cfg) (j : Fin 3) (p : Phase) (gm : Int) (a : Phase) (q : Pt3)
    (h : pathInterp c j (growScale c p gm) = some q) :
    rawMesh c j p gm a = some (meshScale c (isoProj c (rot3dY c q a))) := by
  rw [rawMesh, h]

end Sys2Proof.Machine

open Sys2Proof Sys2Proof.Machine

/-- Settles O14: on a path with a point both reads succeed, and each coordinate is interpolated between the two points. -/
theorem pathInterpInterpolatesTheSegment : Obligations.PathInterpInterpolatesTheSegment := by
  intro j gp s hpoints
  obtain ⟨a, b, ha, hb, hinterp⟩ := pathInterp_of_points s.cfg j gp hpoints
  rw [segIndex_eq] at ha hb
  refine ⟨a, b, _, rfl, ha, hb, ?_⟩
  rw [exec_pathInterp j gp _ s hinterp]
  simp only [interpolate_eq]
  rfl

/-- Settles O15: the two lookups at the angle, and each sum divided once. -/
theorem rot3dRotatesAboutY : Obligations.Rot3dRotatesAboutY := by
  intro px py pz a s
  refine ⟨_, _, exec_lutCos a s, exec_lutSin a s, ?_⟩
  rw [exec_rot3dY, rot3dY_eq]
  rfl

/-- Settles O16: each product divided once. -/
theorem isoProjAndMeshScale : Obligations.IsoProjAndMeshScale := fun x y z h v s =>
  ⟨by rw [exec_isoProj, isoProj_eq], by rw [exec_meshScale, meshScale_eq]⟩

/-- Settles O17: the path has a point to interpolate, and from it the raw pair is built from the functions that the later
sub-operations answer with, at the advanced `ROT[1 + j]`. -/
theorem shapeMeshIsItsSubOperations : Obligations.ShapeMeshIsItsSubOperations := by
  intro j k s hk hpoints
  obtain rfl : k = meshRot j := Fin.ext hk
  obtain ⟨_, _, _, _, hinterp⟩ := pathInterp_of_points s.cfg j (growScale s.cfg s.ph s.mod1.toInt) hpoints
  exact ⟨_, _, _, _, _, _, exec_growScale s.ph s.mod1.toInt s, exec_pathInterp j _ _ s hinterp,
    exec_rotAdv (meshRot j) s.mod2.toInt s, exec_rot3dY _ _ _ _ _, exec_isoProj _ _ _ _, exec_meshScale _ _ _,
    exec_shapeMesh j _ s (rawMesh_of_pathInterp s.cfg j s.ph s.mod1.toInt _ _ hinterp)⟩

end

section
/-! PROOFS of the family `44_shape_wavetable.md`: the blend of two samples in the numbers of R152, at both ends and in the
middle, the weight that the morph value saturates to, and the gains of R153; the morph law (R154) is the blend at these
weights. -/

namespace Sys2Proof.Machine

/-! ### The blend of two samples (R152) -/

theorem morphMix_eq (a b m : Int) : morphMix a b m = a + (b - a) * m / 4096 :=
  interpolate_eq a b m 12

/-- The unscaled operand is a multiple of the divisor, so it moves under the floor. -/
theorem morphMix_eq_weightedSum (a b m : Int) : morphMix a b m = (a * (4096 - m) + b * m) / 4096 := by
  have hsum : a * (4096 - m) + b * m = (b - a) * m + a * 4096 := by ring
  rw [morphMix_eq, hsum, Int.add_mul_ediv_right _ _ (by decide), add_comm]

theorem morphMix_between (a b m : Int) (h0 : 0 ≤ m) (h1 : m ≤ 4096) :
    min a b ≤ morphMix a b m ∧ morphMix a b m ≤ max a b :=
  interpolate_between a b m 12 h0 h1

@[simp] theorem morphMix_zero (a b : Int) : morphMix a b 0 = a :=
  interpolate_zero a b 12

@[simp] theorem morphMix_full (a b : Int) : morphMix a b 4096 = b :=
  interpolate_full a b 12

/-- At half weight the sum carries a factor 2048 on both sides of the division. -/
@[simp] theorem morphMix_half (a b : Int) : morphMix a b 2048 = (a + b) / 2 := by
  rw [morphMix_eq_weightedSum]
  omega

/-! ### The saturated weight (R150) -/

theorem morphValue_of_nonpos {mm : Int} (h : mm ≤ 0) : morphValue mm = 0 := by
  rw [morphValue_eq]; omega

theorem morphValue_of_ge {mm : Int} (h : 4096 ≤ mm) : morphValue mm = 4096 := by
  rw [morphValue_eq]; omega

theorem morphValue_half : morphValue 2048 = 2048 := by decide

/-! ### The gains, and the raw pair as a scaled blend (R153, R150) -/

/-- The scaled point, in the numbers of R153. -/
theorem wtScale_eq (c : Cfg) (q : Pt2) : wtScale c q =
    ⟨q.x * c.wtGainX.toInt / 2 ^ c.wtShift.val, -(q.y * c.wtGainY.toInt / 2 ^ c.wtShift.val)⟩ := by
  simp only [wtScale, asr_eq]

/-- `SHAPE.WT` answers as `WT.SCALE` does on the two blends at the saturated weight (R150). -/
theorem exec_shapeWt_eq_wtScale (j : Fin 3) (s : State) (w : WtSamples) (m : Int)
    (hw : wtFetch s.cfg j (growScale s.cfg s.ph s.mod1.toInt) = w) (hm : morphValue s.mod2.toInt = m) :
    exec (.shapeWt j) s = exec (.wtScale (morphMix w.ah w.bh m) (morphMix w.av w.bv m)) s := by
  subst hw hm
  rw [exec_shapeWt, exec_wtScale, rawWt]

end Sys2Proof.Machine

open Sys2Proof Sys2Proof.Machine

/-- Settles O20: both forms are one floor of the same sum, and the weight stays within the unit of 4096. -/
theorem morphMixBlends : Obligations.MorphMixBlends := by
  intro a b m s h0 h1
  obtain ⟨hlow, hhigh⟩ := morphMix_between a b m h0 h1
  refine ⟨_, exec_morphMix a b m s, morphMix_eq a b m, morphMix_eq_weightedSum a b m, hlow, hhigh, ?_, ?_, ?_⟩
  · rintro rfl; exact morphMix_zero a b
  · rintro rfl; exact morphMix_full a b
  · rintro rfl; exact morphMix_half a b

/-- Settles O23: in each clause the saturated weight is one at which the blend is known, so `WT.SCALE` sees table A's
samples, table B's or their floored means. -/
theorem morphLaw : Obligations.MorphLaw := by
  intro j s
  refine ⟨_, _, exec_growScale s.ph s.mod1.toInt s, exec_wtFetch j _ s, fun hlow => ?_, fun hhigh => ?_, fun hhalf => ?_⟩
  · rw [exec_shapeWt_eq_wtScale j s _ 0 rfl (morphValue_of_nonpos hlow), morphMix_zero, morphMix_zero]
  · rw [exec_shapeWt_eq_wtScale j s _ 4096 rfl (morphValue_of_ge hhigh), morphMix_full, morphMix_full]
  · rw [exec_shapeWt_eq_wtScale j s _ 2048 rfl (hhalf ▸ morphValue_half), morphMix_half, morphMix_half]

/-- Settles O19: `WT.FETCH` answers with the lookups that `LUT.READ` answers with, all at the one phase. -/
theorem wtFetchReadsFourTables : Obligations.WtFetchReadsFourTables := fun j gp s =>
  ⟨wtFetch s.cfg j gp, exec_lutRead (.wt j .a .h) gp s, exec_lutRead (.wt j .a .v) gp s, exec_lutRead (.wt j .b .h) gp s,
    exec_lutRead (.wt j .b .v) gp s, exec_wtFetch j gp s⟩

/-- Settles O21: each product divided once, the vertical quotient negated. -/
theorem wtScaleInvertsVertical : Obligations.WtScaleInvertsVertical := by
  intro mx my s
  rw [exec_wtScale, wtScale_eq]

/-- Settles O22: `SHAPE.WT` scales the two blends at the saturated weight, and scaling answers with a pair. -/
theorem shapeWtIsItsSubOperations : Obligations.ShapeWtIsItsSubOperations := by
  intro j s
  exact ⟨_, _, _, _, _, exec_growScale s.ph s.mod1.toInt s, exec_wtFetch j _ s, exec_morphMix _ _ _ s,
    exec_morphMix _ _ _ s, exec_wtScale _ _ s,
    (exec_shapeWt_eq_wtScale j s _ _ rfl (morphValue_eq _)).trans (exec_wtScale _ _ s)⟩

end

section
/-! PROOFS of the family `45_modulation_router.md`: one router operation as it acts on either of its two channels (R162), a
run of them in one mode, and the guard law (R167): a channel is frozen by the change, held while its control is within the
deadband, and free from the first operation past it on. -/

namespace Sys2Proof.Machine

/-! ### One channel of the router, its operands and registers (R160) -/

/-- A channel of the router. The procedure does the same on both (R162), so what follows is said of either. -/
inductive RouterChannel where
  | one
  | two

namespace RouterChannel

/-- `ctl1` or `ctl2`. -/
def ctl (k : RouterChannel) (x : RouteInput) : Half :=
  match k with
  | .one => x.ctl1
  | .two => x.ctl2

/-- `aud1` or `aud2`. -/
def aud (k : RouterChannel) (x : RouteInput) : Half :=
  match k with
  | .one => x.aud1
  | .two => x.aud2

/-- `G1` or `G2`. -/
def guard (k : RouterChannel) (s : State) : Bool :=
  match k with
  | .one => s.g1
  | .two => s.g2

/-- `REF1` or `REF2`. -/
def ref (k : RouterChannel) (s : State) : Half :=
  match k with
  | .one => s.ref1
  | .two => s.ref2

/-- `MOD1` or `MOD2`. -/
def mod (k : RouterChannel) (s : State) : Word32 :=
  match k with
  | .one => s.mod1
  | .two => s.mod2

end RouterChannel

/-! ### One router operation (R162) -/

/-- The state in which a router operation of mode `m` completes. -/
def afterRoute (m : RouterMode) (x : RouteInput) (s : State) : State :=
  answer (routed (route m x.ctl1 x.ctl2 0#16 x.aud1 x.aud2 s)) (route m x.ctl1 x.ctl2 0#16 x.aud1 x.aud2 s)

theorem exec_routeInstr_afterRoute (m : RouterMode) (x : RouteInput) (s : State) :
    exec (routeInstr m x) s = .next (afterRoute m x s) :=
  exec_routeInstr m x s

/-- Each row of the opcode table completes there whatever `cv1` is (R163, R168). -/
theorem exec_modRouteAtt_afterRoute (ctl1 ctl2 cv1 aud1 aud2 : Half) (s : State) :
    exec (.modRouteAtt ctl1 ctl2 cv1 aud1 aud2) s = .next (afterRoute .attenuate ⟨ctl1, ctl2, aud1, aud2⟩ s) := rfl

theorem exec_modRouteOfs_afterRoute (ctl1 ctl2 cv1 aud1 aud2 : Half) (s : State) :
    exec (.modRouteOfs ctl1 ctl2 cv1 aud1 aud2) s = .next (afterRoute .offset ⟨ctl1, ctl2, aud1, aud2⟩ s) := rfl

theorem exec_modRouteOfs2_afterRoute (ctl1 ctl2 cv1 aud1 aud2 : Half) (s : State) :
    exec (.modRouteOfs2 ctl1 ctl2 cv1 aud1 aud2) s = .next (afterRoute .offset ⟨ctl1, ctl2, aud1, aud2⟩ s) := rfl

/-- The pair returned is the pair of modulation registers (R162). -/
theorem afterRoute_result (m : RouterMode) (x : RouteInput) (s : State) :
    (afterRoute m x s).result = .pair ⟨(afterRoute m x s).mod1.toInt, (afterRoute m x s).mod2.toInt⟩ := rfl

@[simp] theorem afterRoute_cfg (m : RouterMode) (x : RouteInput) (s : State) : (afterRoute m x s).cfg = s.cfg := by
  rw [afterRoute, route_eq]; rfl

/-- The mode is recorded, so a further operation of the same mode sees no change. -/
@[simp] theorem modeChanged_afterRoute (m : RouterMode) (x : RouteInput) (s : State) :
    modeChanged m (afterRoute m x s) = false := by
  simp [modeChanged, afterRoute, route_eq]

theorem guard_afterRoute (k : RouterChannel) (m : RouterMode) (x : RouteInput) (s : State) :
    k.guard (afterRoute m x s) = (modeChanged m s || (k.guard s && !movedPast s.cfg (k.ctl x) (k.ref s))) := by
  rw [afterRoute, route_eq]; cases k <;> rfl

theorem ref_afterRoute (k : RouterChannel) (m : RouterMode) (x : RouteInput) (s : State) :
    k.ref (afterRoute m x s) = if modeChanged m s then k.ctl x else k.ref s := by
  rw [afterRoute, route_eq]; cases k <;> rfl

theorem mod_afterRoute (k : RouterChannel) (m : RouterMode) (x : RouteInput) (s : State) :
    k.mod (afterRoute m x s) = if k.guard (afterRoute m x s) then k.mod s
      else cut32 (modFormula s.cfg m (k.ctl x) (k.aud x)) := by
  rw [afterRoute, route_eq]; cases k <;> rfl

theorem mod_afterRoute_of_guarded {k : RouterChannel} {m : RouterMode} {x : RouteInput} {s : State}
    (h : k.guard (afterRoute m x s) = true) : k.mod (afterRoute m x s) = k.mod s := by
  rw [mod_afterRoute, if_pos h]

theorem mod_afterRoute_of_free {k : RouterChannel} {m : RouterMode} {x : RouteInput} {s : State}
    (h : k.guard (afterRoute m x s) = false) :
    (k.mod (afterRoute m x s)).toInt = modFormula s.cfg m (k.ctl x) (k.aud x) := by
  rw [mod_afterRoute, h, if_neg Bool.false_ne_true, modFormula_not_cut]

/-- A free channel stays free while the mode is the same. -/
theorem guard_afterRoute_of_free {k : RouterChannel} {m : RouterMode} {x : RouteInput} {s : State}
    (hmode : modeChanged m s = false) (hfree : k.guard s = false) : k.guard (afterRoute m x s) = false := by
  rw [guard_afterRoute, hmode, hfree]; rfl

/-! ### The two formulas and the release, in the numbers of R163, R164 and R166 -/

theorem modFormula_attenuate (c : Cfg) (ctl aud : Half) :
    modFormula c .attenuate ctl aud = aud.toInt * ctl.toInt / 2 ^ c.attShift.val :=
  asr_eq _ _

theorem modFormula_offset (c : Cfg) (ctl aud : Half) : modFormula c .offset ctl aud = ctl.toInt + aud.toInt := rfl

theorem modFormula_eq (c : Cfg) (m : RouterMode) (ctl aud : Half) : modFormula c m ctl aud = (match m with
    | .attenuate => aud.toInt * ctl.toInt / 2 ^ c.attShift.val
    | .offset => ctl.toInt + aud.toInt) := by
  cases m with
  | attenuate => exact modFormula_attenuate c ctl aud
  | offset => exact modFormula_offset c ctl aud

/-- A guard outlives the release exactly while the control is within the deadband. -/
theorem stays_guarded_iff (c : Cfg) (g : Bool) (ctl ref : Half) :
    (g && !movedPast c ctl ref) = true ↔ g = true ∧ |ctl.toInt - ref.toInt| ≤ (c.deadband : Int) := by
  rw [Bool.and_eq_true, Bool.not_eq_true', movedPast_eq_false_iff]

/-! ### The guard lines of the procedure, as operations of their own (R162) -/

/-- The state after the first two lines of the procedure: frozen where the mode has changed. -/
def frozenOnChange (m : RouterMode) (ctl1 ctl2 : Half) (s : State) : State :=
  answer .nothing (if modeChanged m s then freeze ctl1 ctl2 s else s)

/-- It is the state after `GUARD.FREEZE` where the mode has changed, and the state before otherwise. -/
theorem frozenOnChange_spec (m : RouterMode) (ctl1 ctl2 : Half) (s : State) {changed : Prop} [Decidable changed]
    (h : modeChanged m s = true ↔ changed) :
    if changed then exec (.guardFreeze ctl1 ctl2) s = .next (frozenOnChange m ctl1 ctl2 s)
      else frozenOnChange m ctl1 ctl2 s = { s with result := .nothing } := by
  split
  · next hc => rw [exec_guardFreeze, frozenOnChange, if_pos (h.mpr hc)]
  · next hc => rw [frozenOnChange, if_neg (mt h.mp hc)]; rfl

/-- `GUARD.RELEASE` in the recorded mode leaves what the router leaves, but for the two modulation registers. -/
theorem exec_guardRelease_frozenOnChange (m : RouterMode) (x : RouteInput) (s : State) :
    exec (.guardRelease x.ctl1 x.ctl2) { frozenOnChange m x.ctl1 x.ctl2 s with mode := m, modeV := true }
      = .next { afterRoute m x s with mod1 := s.mod1, mod2 := s.mod2, result := .nothing } := by
  have hguards : exec (.guardRelease x.ctl1 x.ctl2) (setMode m (frozenOnChange m x.ctl1 x.ctl2 s))
      = .next (answer .nothing (routeGuards m x.ctl1 x.ctl2 s)) := rfl
  refine hguards.trans ?_
  rw [routeGuards_eq, afterRoute, route_eq]
  rfl

/-! ### A run of router operations in one mode, and the guard law (R167) -/

/-- The state in which router operations of mode `m`, one after the other, complete. -/
def afterRoutes (m : RouterMode) (xs : List RouteInput) (s : State) : State :=
  xs.foldl (fun t x => afterRoute m x t) s

theorem runOps_routeInstr (m : RouterMode) (xs : List RouteInput) (s : State) :
    runOps (xs.map (routeInstr m)) s = .next (afterRoutes m xs s) := by
  induction xs generalizing s with
  | nil => rfl
  | cons x xs ih =>
    rw [List.map_cons, runOps, exec_routeInstr_afterRoute, andThen_next, ih]
    rfl

/-- Channel `k` is frozen at `r` in mode `m`, and holds the value it had in `s`. -/
structure HeldSince (k : RouterChannel) (m : RouterMode) (r : Half) (s t : State) : Prop where
  cfg : t.cfg = s.cfg
  mode : modeChanged m t = false
  guard : k.guard t = true
  ref : k.ref t = r
  mod : k.mod t = k.mod s

/-- The operation that sees the change freezes the channel, with its control as the reference. -/
theorem heldSince_of_modeChanged (k : RouterChannel) {m : RouterMode} {s : State} (x : RouteInput)
    (h : modeChanged m s = true) : HeldSince k m (k.ctl x) s (afterRoute m x s) := by
  have hguard : k.guard (afterRoute m x s) = true := by rw [guard_afterRoute, h, Bool.true_or]
  exact ⟨afterRoute_cfg m x s, modeChanged_afterRoute m x s, hguard, by rw [ref_afterRoute, if_pos h],
    mod_afterRoute_of_guarded hguard⟩

/-- What is left of the guard of a held channel after one more operation: its control decides. -/
theorem HeldSince.guard_afterRoute {k : RouterChannel} {m : RouterMode} {r : Half} {s t : State}
    (h : HeldSince k m r s t) (x : RouteInput) : k.guard (afterRoute m x t) = !movedPast s.cfg (k.ctl x) r := by
  rw [Machine.guard_afterRoute, h.mode, h.guard, h.ref, h.cfg, Bool.false_or, Bool.true_and]

/-- Within the deadband the channel is held on. -/
theorem HeldSince.afterRoute {k : RouterChannel} {m : RouterMode} {r : Half} {s t : State}
    (h : HeldSince k m r s t) (x : RouteInput) (hx : |(k.ctl x).toInt - r.toInt| ≤ (s.cfg.deadband : Int)) :
    HeldSince k m r s (afterRoute m x t) := by
  have hguard : k.guard (Machine.afterRoute m x t) = true := by
    rw [h.guard_afterRoute, (movedPast_eq_false_iff _ _ _).mpr hx, Bool.not_false]
  exact ⟨(afterRoute_cfg m x t).trans h.cfg, modeChanged_afterRoute m x t, hguard,
    by rw [ref_afterRoute, h.mode, if_neg Bool.false_ne_true, h.ref], (mod_afterRoute_of_guarded hguard).trans h.mod⟩

/-- The hold lasts over any number of operations within the deadband. -/
theorem HeldSince.afterRoutes {k : RouterChannel} {m : RouterMode} {r : Half} {s t : State}
    (h : HeldSince k m r s t) (xs : List RouteInput)
    (hxs : ∀ x ∈ xs, |(k.ctl x).toInt - r.toInt| ≤ (s.cfg.deadband : Int)) :
    HeldSince k m r s (afterRoutes m xs t) := by
  induction xs generalizing t with
  | nil => exact h
  | cons x xs ih =>
    obtain ⟨hx, hrest⟩ := List.forall_mem_cons.mp hxs
    exact ih (h.afterRoute x hx) hrest

/-- From an operation that leaves the channel free, it follows the mode's formula, whose operands are the last one's. -/
theorem mod_afterRoutes_of_free {k : RouterChannel} {m : RouterMode} {y z : RouteInput} {s : State}
    (ys : List RouteInput) (hfree : k.guard (afterRoute m y s) = false) (hlast : (y :: ys).getLast? = some z) :
    (k.mod (afterRoutes m (y :: ys) s)).toInt = modFormula s.cfg m (k.ctl z) (k.aud z) := by
  induction ys generalizing y s with
  | nil =>
    obtain rfl : y = z := Option.some.inj hlast
    exact mod_afterRoute_of_free hfree
  | cons y' ys ih =>
    rw [List.getLast?_cons_cons] at hlast
    have hrest := ih (guard_afterRoute_of_free (modeChanged_afterRoute m y s) hfree) hlast
    rwa [afterRoute_cfg] at hrest

/-- The guard law (R167), for either channel. -/
theorem guardLaw (k : RouterChannel) (m : RouterMode) (s : State) (x y z : RouteInput) (xs ys : List RouteInput) :
    s.modeV = true → s.mode ≠ m →
    (∀ v ∈ xs, |(k.ctl v).toInt - (k.ctl x).toInt| ≤ (s.cfg.deadband : Int)) →
    (s.cfg.deadband : Int) < |(k.ctl y).toInt - (k.ctl x).toInt| →
    (y :: ys).getLast? = some z →
    ∃ t u : State,
      runOps ((x :: xs).map (routeInstr m)) s = .next t ∧ k.mod t = k.mod s
      ∧ runOps ((y :: ys).map (routeInstr m)) t = .next u
      ∧ (k.mod u).toInt = (match m with
        | .attenuate => (k.aud z).toInt * (k.ctl z).toInt / 2 ^ s.cfg.attShift.val
        | .offset => (k.ctl z).toInt + (k.aud z).toInt) := by
  intro hmodeV hmode hwithin hpast hlast
  have hchanged : modeChanged m s = true := (modeChanged_eq_true_iff m s).mpr ⟨hmodeV, hmode⟩
  have hheld : HeldSince k m (k.ctl x) s (afterRoutes m (x :: xs) s) :=
    (heldSince_of_modeChanged k x hchanged).afterRoutes xs hwithin
  have hfree : k.guard (afterRoute m y (afterRoutes m (x :: xs) s)) = false := by
    rw [hheld.guard_afterRoute, (movedPast_eq_true_iff _ _ _).mpr hpast, Bool.not_true]
  refine ⟨_, _, runOps_routeInstr m (x :: xs) s, hheld.mod, runOps_routeInstr m (y :: ys) _, ?_⟩
  rw [mod_afterRoutes_of_free ys hfree hlast, hheld.cfg, modFormula_eq]

end Sys2Proof.Machine

open Sys2Proof Sys2Proof.Machine

/-- Settles O24: `GUARD.FREEZE` writes both flags and both references at once. -/
theorem guardFreezeFreezesBoth : Obligations.GuardFreezeFreezesBoth := exec_guardFreeze

/-- Settles O25: each flag is kept exactly within the deadband, by the one comparison of R166. -/
theorem guardReleaseNeedsTheDeadband : Obligations.GuardReleaseNeedsTheDeadband := fun ctl1 ctl2 s =>
  ⟨_, exec_guardRelease ctl1 ctl2 s, stays_guarded_iff s.cfg s.g1 ctl1 s.ref1,
    stays_guarded_iff s.cfg s.g2 ctl2 s.ref2, rfl⟩

/-- Settles O28: each row completes in a state that `cv1` has no part in. -/
theorem routerIgnoresCv1 : Obligations.RouterIgnoresCv1 := by
  intro ctl1 ctl2 cv1 cv1' aud1 aud2 s
  simp only [exec_modRouteAtt_afterRoute, exec_modRouteOfs_afterRoute, exec_modRouteOfs2_afterRoute, and_self]

/-- Settles O26: the guard lines are the two guard operations, and each channel is held or takes the product's floor. -/
theorem routeAttFollowsTheProcedure : Obligations.RouteAttFollowsTheProcedure := by
  intro ctl1 ctl2 cv1 aud1 aud2 s
  have hchanged : modeChanged .attenuate s = true ↔ s.modeV = true ∧ s.mode = .offset := by
    rw [modeChanged_eq_true_iff]; cases s.mode <;> simp
  exact ⟨_, afterRoute .attenuate ⟨ctl1, ctl2, aud1, aud2⟩ s, frozenOnChange_spec _ ctl1 ctl2 s hchanged,
    exec_modRouteAtt_afterRoute ctl1 ctl2 cv1 aud1 aud2 s, exec_guardRelease_frozenOnChange _ ⟨ctl1, ctl2, aud1, aud2⟩ s,
    mod_afterRoute_of_guarded (k := .one), fun h => (mod_afterRoute_of_free (k := .one) h).trans (modFormula_attenuate _ _ _),
    mod_afterRoute_of_guarded (k := .two), fun h => (mod_afterRoute_of_free (k := .two) h).trans (modFormula_attenuate _ _ _),
    afterRoute_result _ _ s⟩

/-- Settles O27: the same procedure in offset mode; the two rows complete in one state. -/
theorem routeOfsFollowsTheProcedure : Obligations.RouteOfsFollowsTheProcedure := by
  intro ctl1 ctl2 cv1 aud1 aud2 s
  have hchanged : modeChanged .offset s = true ↔ s.modeV = true ∧ s.mode = .attenuate := by
    rw [modeChanged_eq_true_iff]; cases s.mode <;> simp
  exact ⟨_, afterRoute .offset ⟨ctl1, ctl2, aud1, aud2⟩ s, frozenOnChange_spec _ ctl1 ctl2 s hchanged,
    exec_modRouteOfs_afterRoute ctl1 ctl2 cv1 aud1 aud2 s, exec_modRouteOfs2_afterRoute ctl1 ctl2 cv1 aud1 aud2 s,
    exec_guardRelease_frozenOnChange _ ⟨ctl1, ctl2, aud1, aud2⟩ s,
    mod_afterRoute_of_guarded (k := .one), mod_afterRoute_of_free (k := .one),
    mod_afterRoute_of_guarded (k := .two), mod_afterRoute_of_free (k := .two), afterRoute_result _ _ s⟩

/-- Settles O29: the guard law at channel 1. -/
theorem guardLawOfChannelOne : Obligations.GuardLawOfChannelOne := guardLaw .one

/-- Settles O30: the guard law at channel 2. -/
theorem guardLawOfChannelTwo : Obligations.GuardLawOfChannelTwo := guardLaw .two

end

section
/-! PROOFS of the family `46_selector.md`: how each selector operation completes (R172 to R174), and the cycles of R176.
The three cycles are one argument: the places an operation moves through are numbered, the operation adds one to the
number modulo the count of the places, and so that many applications come back to the place they began at. -/

namespace Sys2Proof.Machine

/-! ### How the operations complete (R172 to R174) -/

theorem exec_selAdvOsc_of_inRange (s : State) (n : Nat) (h : structureOk s.cfg = true)
    (hn : slotCount s.cfg s.bank.toNat = some n) (hk : s.slot.toNat < n) :
    ∃ b k, exec .selAdvOsc s = .next (answer .nothing (setSelector b k s))
      ∧ (s.slot.toNat + 1 = n ∧ b = nextBank s ∧ k = 0#4
        ∨ s.slot.toNat + 1 < n ∧ b = s.bank ∧ k.toNat = s.slot.toNat + 1) := by
  rw [exec_selAdvOsc]
  rcases advOsc_of_inRange s n h hn hk with ⟨hlast, e⟩ | ⟨hlt, hv, e⟩
  · exact ⟨nextBank s, 0#4, congrArg selected e, .inl ⟨hlast, rfl, rfl⟩⟩
  · exact ⟨s.bank, s.slot + 1#4, congrArg selected e, .inr ⟨hlt, rfl, hv⟩⟩

theorem exec_selAdvBank_of_wellFormed (s : State) (h : structureOk s.cfg = true) :
    exec .selAdvBank s = .next (answer .nothing (setSelector (nextBank s) 0#4 s)) :=
  congrArg selected (advBank_of_wellFormed s h)

theorem exec_selAdvSlot_of_bank (s : State) (n : Nat) (h : structureOk s.cfg = true)
    (hn : slotCount s.cfg s.bank.toNat = some n) :
    ∃ k, exec .selAdvSlot s = .next (answer .nothing (setSelector s.bank k s)) ∧ k.toNat = (s.slot.toNat + 1) % n := by
  obtain ⟨e, hk⟩ := advSlot_of_bank s n h hn
  exact ⟨_, congrArg selected e, hk⟩

/-! ### An operation that cycles through numbered places -/

/-- From `s`, the operation `i` moves the selector cyclically through the `N` numbers of `place`: each place has a number
below `N` of its own, and the operation goes on to the place of the next number, changing only the selector and the
result. -/
structure CyclesThrough (i : Instr) (s : State) (N : Nat) (place : BitVec 4 → BitVec 4 → Prop)
    (number : BitVec 4 → BitVec 4 → Nat) : Prop where
  number_lt : ∀ {b k}, place b k → number b k < N
  number_inj : ∀ {b k b' k'}, place b k → place b' k' → number b k = number b' k' → b = b' ∧ k = k'
  advances : ∀ {b k} (r : OpResult), place b k → ∃ b' k',
    exec i (answer r (setSelector b k s)) = .next (answer .nothing (setSelector b' k' s))
    ∧ place b' k' ∧ number b' k' = (number b k + 1) % N

/-- `m + 1` applications add `m + 1` to the number. -/
theorem CyclesThrough.runOps_replicate {i : Instr} {s : State} {N : Nat} {place : BitVec 4 → BitVec 4 → Prop}
    {number : BitVec 4 → BitVec 4 → Nat} (hc : CyclesThrough i s N place number) (m : Nat) {b k : BitVec 4}
    (r : OpResult) (h : place b k) : ∃ b' k',
      runOps (List.replicate (m + 1) i) (answer r (setSelector b k s)) = .next (answer .nothing (setSelector b' k' s))
      ∧ place b' k' ∧ number b' k' = (number b k + (m + 1)) % N := by
  induction m generalizing b k r with
  | zero => simpa only [Nat.zero_add, List.replicate_one, runOps_singleton] using hc.advances r h
  | succ m ih =>
    obtain ⟨b₁, k₁, e₁, h₁, hnum₁⟩ := hc.advances r h
    obtain ⟨b₂, k₂, e₂, h₂, hnum₂⟩ := ih .nothing h₁
    refine ⟨b₂, k₂, ?_, h₂, ?_⟩
    · rw [List.replicate_succ, runOps, e₁, andThen_next, e₂]
    · rw [hnum₂, hnum₁, Nat.mod_add_mod, Nat.add_assoc, Nat.add_comm 1 (m + 1)]

/-- As many applications as there are numbers return to the same selector state (R176). -/
theorem CyclesThrough.returns {i : Instr} {s : State} {N : Nat} {place : BitVec 4 → BitVec 4 → Prop}
    {number : BitVec 4 → BitVec 4 → Nat} (hc : CyclesThrough i s N place number) (h : place s.bank s.slot) :
    runOps (List.replicate N i) s = .next (answer .nothing s) := by
  have hlt := hc.number_lt h
  obtain ⟨m, rfl⟩ : ∃ m, N = m + 1 := ⟨N - 1, by omega⟩
  obtain ⟨b, k, e, hplace, hnum⟩ := hc.runOps_replicate m s.result h
  rw [Nat.add_mod_right, Nat.mod_eq_of_lt hlt] at hnum
  obtain ⟨rfl, rfl⟩ := hc.number_inj hplace h hnum
  exact e

/-! ### The cycle of `SEL.ADVBANK` through the banks and of `SEL.ADVSLOT` through one bank's slots -/

theorem selAdvBank_cyclesThrough (s : State) (h : structureOk s.cfg = true) :
    CyclesThrough .selAdvBank s (bankCount s.cfg) (fun b k => b.toNat < bankCount s.cfg ∧ k = 0#4)
      (fun b _ => b.toNat) where
  number_lt hplace := hplace.1
  number_inj := fun ⟨_, hk⟩ ⟨_, hk'⟩ hnum => ⟨BitVec.eq_of_toNat_eq hnum, hk.trans hk'.symm⟩
  advances {b k} r _ :=
    ⟨_, _, exec_selAdvBank_of_wellFormed (answer r (setSelector b k s)) h, ⟨nextBank_lt _ h, rfl⟩, nextBank_toNat _ h⟩

theorem selAdvSlot_cyclesThrough (s : State) (n : Nat) (h : structureOk s.cfg = true)
    (hn : slotCount s.cfg s.bank.toNat = some n) :
    CyclesThrough .selAdvSlot s n (fun b k => b = s.bank ∧ k.toNat < n) (fun _ k => k.toNat) where
  number_lt hplace := hplace.2
  number_inj := fun ⟨hb, _⟩ ⟨hb', _⟩ hnum => ⟨hb.trans hb'.symm, BitVec.eq_of_toNat_eq hnum⟩
  advances := by
    rintro _ k r ⟨rfl, hk⟩
    obtain ⟨k', e, hk'⟩ := exec_selAdvSlot_of_bank (answer r (setSelector s.bank k s)) n h hn
    exact ⟨s.bank, k', e, ⟨rfl, hk' ▸ Nat.mod_lt _ (by omega)⟩, hk'⟩

/-! ### The layout in lexicographic order, and the cycle of `SEL.ADVOSC` through it (R176) -/

/-- `SLOTS[0] + ... + SLOTS[b - 1]`: how many slots stand before bank `b`. -/
def slotsBefore (c : Cfg) (b : Nat) : Nat :=
  ((c.gdesc.take b).map List.length).sum

theorem slotsBefore_zero (c : Cfg) : slotsBefore c 0 = 0 := rfl

theorem slotsBefore_bankCount (c : Cfg) : slotsBefore c (bankCount c) = totalSlots c := by
  rw [slotsBefore, bankCount, List.take_length, totalSlots]

theorem slotsBefore_succ {c : Cfg} {b n : Nat} (hn : slotCount c b = some n) :
    slotsBefore c (b + 1) = slotsBefore c b + n := by
  obtain ⟨l, hl, rfl⟩ := Option.map_eq_some_iff.mp hn
  simp [slotsBefore, List.take_add_one, hl]

theorem slotsBefore_mono (c : Cfg) : Monotone (slotsBefore c) := fun _ _ hle =>
  (((List.take_prefix_take_left hle).sublist).map List.length).sum_le_sum fun _ _ => Nat.zero_le _

/-- A bank's slots end before any later bank's begin. -/
theorem slotsBefore_add_le {c : Cfg} {b n b' : Nat} (hn : slotCount c b = some n) (hlt : b < b') :
    slotsBefore c b + n ≤ slotsBefore c b' :=
  slotsBefore_succ hn ▸ slotsBefore_mono c hlt

/-- The bank after the last slot's: either the next number is its first slot's, or the numbers start again. -/
theorem slotsBefore_succ_mod {c : Cfg} {b : Nat} (h : structureOk c = true) (hb : b < bankCount c) :
    slotsBefore c ((b + 1) % bankCount c) = slotsBefore c (b + 1) % totalSlots c := by
  rcases Nat.lt_or_eq_of_le (Nat.succ_le_of_lt hb) with hlt | hlast
  · obtain ⟨n, hn⟩ := slotCount_of_lt c (b + 1) hlt
    have hpos := (structureOk_slotCount c h _ _ hn).2.1
    have hle := slotsBefore_add_le hn hlt
    rw [slotsBefore_bankCount] at hle
    rw [Nat.mod_eq_of_lt hlt, Nat.mod_eq_of_lt (by omega)]
  · rw [show b + 1 = bankCount c from hlast, Nat.mod_self, slotsBefore_zero, slotsBefore_bankCount, Nat.mod_self]

/-- Slot `k` of bank `b` exists in the layout (R29). -/
def InLayout (c : Cfg) (b k : BitVec 4) : Prop :=
  ∃ n, slotCount c b.toNat = some n ∧ k.toNat < n

/-- The number of slot `k` of bank `b` in the layout's lexicographic order. -/
def layoutNumber (c : Cfg) (b k : BitVec 4) : Nat :=
  slotsBefore c b.toNat + k.toNat

theorem layoutNumber_lt_totalSlots {c : Cfg} {b k : BitVec 4} (h : structureOk c = true) (hplace : InLayout c b k) :
    layoutNumber c b k < totalSlots c := by
  obtain ⟨n, hn, hk⟩ := hplace
  have hle := slotsBefore_add_le hn (structureOk_slotCount c h _ _ hn).1
  rw [slotsBefore_bankCount] at hle
  simp only [layoutNumber]; omega

theorem layoutNumber_lt_of_bank_lt {c : Cfg} {b k b' k' : BitVec 4} (hplace : InLayout c b k)
    (hlt : b.toNat < b'.toNat) : layoutNumber c b k < layoutNumber c b' k' := by
  obtain ⟨n, hn, hk⟩ := hplace
  have hle := slotsBefore_add_le hn hlt
  simp only [layoutNumber]; omega

theorem layoutNumber_inj {c : Cfg} {b k b' k' : BitVec 4} (hplace : InLayout c b k) (hplace' : InLayout c b' k')
    (hnum : layoutNumber c b k = layoutNumber c b' k') : b = b' ∧ k = k' := by
  rcases Nat.lt_trichotomy b.toNat b'.toNat with hlt | heq | hgt
  · exact absurd hnum (layoutNumber_lt_of_bank_lt hplace hlt).ne
  · obtain rfl := BitVec.eq_of_toNat_eq heq
    exact ⟨rfl, BitVec.eq_of_toNat_eq (Nat.add_left_cancel hnum)⟩
  · exact absurd hnum (layoutNumber_lt_of_bank_lt hplace' hgt).ne'

theorem inLayout_iff_selectorInRange (s : State) : InLayout s.cfg s.bank s.slot ↔ selectorInRange s = true :=
  (selectorInRange_iff s).symm

/-- `SEL.ADVOSC` goes on to the place of the next number, from the last bank's last slot to the number 0. -/
theorem exec_selAdvOsc_layoutNumber (s : State) (h : structureOk s.cfg = true) (hplace : InLayout s.cfg s.bank s.slot) :
    ∃ b k, exec .selAdvOsc s = .next (answer .nothing (setSelector b k s)) ∧ InLayout s.cfg b k
      ∧ layoutNumber s.cfg b k = (layoutNumber s.cfg s.bank s.slot + 1) % totalSlots s.cfg := by
  obtain ⟨n, hn, hk⟩ := hplace
  obtain ⟨b, k, e, ⟨hlast, rfl, rfl⟩ | ⟨hlt, rfl, hk'⟩⟩ := exec_selAdvOsc_of_inRange s n h hn hk
  · refine ⟨_, _, e, (inLayout_iff_selectorInRange _).mpr (selectorInRange_first s _ h (nextBank_lt s h)), ?_⟩
    have hbank := slotsBefore_succ_mod h (structureOk_slotCount _ h _ _ hn).1
    rw [layoutNumber, nextBank_toNat s h, hbank, slotsBefore_succ hn, layoutNumber, Nat.add_assoc, hlast]; rfl
  · have hplace' : InLayout s.cfg s.bank k := ⟨n, hn, hk' ▸ hlt⟩
    have hnum : layoutNumber s.cfg s.bank k = layoutNumber s.cfg s.bank s.slot + 1 := by
      rw [layoutNumber, hk', layoutNumber, Nat.add_assoc]
    exact ⟨_, _, e, hplace', by rw [← hnum, Nat.mod_eq_of_lt (layoutNumber_lt_totalSlots h hplace')]⟩

theorem selAdvOsc_cyclesThrough (s : State) (h : structureOk s.cfg = true) :
    CyclesThrough .selAdvOsc s (totalSlots s.cfg) (InLayout s.cfg) (layoutNumber s.cfg) where
  number_lt hplace := layoutNumber_lt_totalSlots h hplace
  number_inj := layoutNumber_inj
  advances {b k} r hplace := exec_selAdvOsc_layoutNumber (answer r (setSelector b k s)) h hplace

end Sys2Proof.Machine

open Sys2Proof Sys2Proof.Machine

/-- Settles O31: `SEL.ADVOSC` leaves the bank exactly from its last slot. -/
theorem selAdvOscStepsThroughTheLayout : Obligations.SelAdvOscStepsThroughTheLayout := by
  intro s n hcfg hn hk
  have h := cfgWellFormed_structure s.cfg hcfg
  obtain ⟨b, k, e, ⟨hlast, rfl, rfl⟩ | ⟨hlt, rfl, hk'⟩⟩ := exec_selAdvOsc_of_inRange s n h hn hk
  · exact ⟨_, e, fun _ => ⟨rfl, nextBank_toNat s h⟩, fun hne => absurd hlast hne, rfl⟩
  · exact ⟨_, e, fun heq => absurd heq hlt.ne, fun _ => ⟨hk', rfl⟩, rfl⟩

/-- Settles O32: a well-formed layout has a bank, so the next bank's number is a remainder by their count. -/
theorem selAdvBankTakesTheNextBank : Obligations.SelAdvBankTakesTheNextBank := by
  intro s hcfg
  have h := cfgWellFormed_structure s.cfg hcfg
  exact ⟨_, exec_selAdvBank_of_wellFormed s h, nextBank_toNat s h, rfl⟩

/-- Settles O33: a bank of a well-formed layout has a slot, so the next slot's number is a remainder by their count. -/
theorem selAdvSlotStaysInTheBank : Obligations.SelAdvSlotStaysInTheBank := by
  intro s n hcfg hn
  obtain ⟨k, e, hk⟩ := exec_selAdvSlot_of_bank s n (cfgWellFormed_structure s.cfg hcfg) hn
  exact ⟨_, e, hk, rfl⟩

/-- Settles O34: `SEL.ADVOSC` cycles through the layout's lexicographic order. -/
theorem selectorCycleLaw : Obligations.SelectorCycleLaw := fun s hcfg hrange =>
  (selAdvOsc_cyclesThrough s (cfgWellFormed_structure s.cfg hcfg)).returns ((inLayout_iff_selectorInRange s).mpr hrange)

/-- Settles O35: `SEL.ADVBANK` cycles through the banks at slot 0, and `SEL.ADVSLOT` through the slots of one bank. -/
theorem bankAndSlotCycles : Obligations.BankAndSlotCycles := by
  intro s n hcfg hn hk
  have h := cfgWellFormed_structure s.cfg hcfg
  have hbank := (structureOk_slotCount s.cfg h _ _ hn).1
  exact ⟨fun hslot => (selAdvBank_cyclesThrough s h).returns ⟨hbank, hslot⟩,
    (selAdvSlot_cyclesThrough s n h hn).returns ⟨rfl, hk⟩⟩

end

section
/-! PROOFS of the family `47_output_conditioner.md`: one filter channel as an integer recurrence that moves toward the
raw sample without passing it (R181, R183), and the values it reaches under a constant one (R184). Both channels are one
argument, `lpfChannel`; an `LPF.STEP` is that on `FX` and on `FY`. -/

namespace Sys2Proof.Machine

/-! ### The change of one channel (R181, R183) -/

theorem lpfDelta_eq (c : Cfg) (f raw : Int) :
    lpfDelta c f raw = (raw - f) * (c.lpfCoef : Int) / 2 ^ c.lpfShift.val :=
  asr_eq _ _

theorem lpfChannel_eq (c : Cfg) (f : Word32) (raw : Int) :
    lpfChannel c f raw = BitVec.ofInt 32 (f.toInt + (raw - f.toInt) * (c.lpfCoef : Int) / 2 ^ c.lpfShift.val) := by
  rw [lpfChannel, cut32, lpfDelta_eq]

/-- `0 < LPF_COEF <= 2^LPF_SHIFT`, the constraint of R8 that R183 and R184 rest on. -/
def CoefInRange (c : Cfg) : Prop :=
  0 < c.lpfCoef ∧ c.lpfCoef ≤ 2 ^ c.lpfShift.val

theorem CoefInRange.pos {c : Cfg} (hc : CoefInRange c) : 0 < (c.lpfCoef : Int) := mod_cast hc.1

theorem CoefInRange.le {c : Cfg} (hc : CoefInRange c) : (c.lpfCoef : Int) ≤ 2 ^ c.lpfShift.val := mod_cast hc.2

/-- R183 in its own words: with `d = raw - f`, the change is in `0..d` where `d >= 0`, and in `d..-1` where `d < 0`. -/
theorem lpfDelta_bounds {c : Cfg} (hc : CoefInRange c) (f raw : Int) :
    (f ≤ raw → 0 ≤ lpfDelta c f raw ∧ lpfDelta c f raw ≤ raw - f)
      ∧ (raw < f → raw - f ≤ lpfDelta c f raw ∧ lpfDelta c f raw < 0) := by
  have hpow : (0 : Int) < 2 ^ c.lpfShift.val := by positivity
  rw [lpfDelta_eq]
  constructor <;> intro h
  · have hdiff : 0 ≤ raw - f := by omega
    exact ⟨Int.ediv_nonneg (mul_nonneg hdiff hc.pos.le) hpow.le,
      Int.ediv_le_of_le_mul hpow (mul_le_mul_of_nonneg_left hc.le hdiff)⟩
  · have hdiff : raw - f < 0 := by omega
    exact ⟨(Int.le_ediv_iff_mul_le hpow).mpr (mul_le_mul_of_nonpos_left hc.le hdiff.le),
      Int.ediv_neg_of_neg_of_pos (mul_neg_of_neg_of_pos hdiff hc.pos) hpow⟩

/-- From below, the change is 0 exactly in the band of R184. -/
theorem lpfDelta_eq_zero_iff {c : Cfg} {f raw : Int} (h : f ≤ raw) :
    lpfDelta c f raw = 0 ↔ (raw - f) * (c.lpfCoef : Int) < 2 ^ c.lpfShift.val := by
  have hpow : (0 : Int) < 2 ^ c.lpfShift.val := by positivity
  have hnonneg := Int.ediv_nonneg (mul_nonneg (Int.sub_nonneg_of_le h) (Int.natCast_nonneg c.lpfCoef)) hpow.le
  rw [lpfDelta_eq, ← hnonneg.ge_iff_eq', ← Int.lt_add_one_iff, Int.zero_add, Int.ediv_lt_iff_lt_mul hpow,
    Int.one_mul]

/-! ### One channel: between its old value and the raw sample, so never cut (R183) -/

/-- The cut to 32 bits changes nothing: the sum lies between two values that fit. -/
theorem lpfChannel_toInt {c : Cfg} {raw : Int} (hc : CoefInRange c) (hraw : fitsS32 raw = true) (f : Word32) :
    (lpfChannel c f raw).toInt = f.toInt + lpfDelta c f.toInt raw := by
  refine cut32_toInt_of_fits _ ?_
  have hf := word32_fits f
  simp only [fitsS32, Bool.and_eq_true, decide_eq_true_eq] at hraw hf ⊢
  have hbounds := lpfDelta_bounds hc f.toInt raw
  omega

/-- No overshoot: the new value is between the old one and the raw sample, and moves where the old one is above. -/
theorem lpfChannel_between {c : Cfg} {raw : Int} (hc : CoefInRange c) (hraw : fitsS32 raw = true) (f : Word32) :
    min f.toInt raw ≤ (lpfChannel c f raw).toInt ∧ (lpfChannel c f raw).toInt ≤ max f.toInt raw
      ∧ (raw < f.toInt → (lpfChannel c f raw).toInt < f.toInt) := by
  rw [lpfChannel_toInt hc hraw]
  have hbounds := lpfDelta_bounds hc f.toInt raw
  omega

/-- In the band of R184 the filter stays. -/
theorem lpfChannel_of_band {c : Cfg} {f : Word32} {raw : Int} (h : f.toInt ≤ raw)
    (hband : (raw - f.toInt) * (c.lpfCoef : Int) < 2 ^ c.lpfShift.val) : lpfChannel c f raw = f := by
  rw [lpfChannel, (lpfDelta_eq_zero_iff h).mpr hband, Int.add_zero, cut32, BitVec.ofInt_toInt]

/-! ### A constant raw sample (R184) -/

/-- What R184 says of a value `v` that the filter reaches from `f`: from above it is the raw sample, from below it is in
the band under it. -/
def Converged (c : Cfg) (raw f v : Int) : Prop :=
  (raw ≤ f → v = raw) ∧ (f ≤ raw → v ≤ raw ∧ (raw - v) * (c.lpfCoef : Int) < 2 ^ c.lpfShift.val)

/-- A value the filter does not move from has converged. -/
theorem converged_of_lpfDelta_eq_zero {c : Cfg} {f raw : Int} (hc : CoefInRange c) (h : lpfDelta c f raw = 0) :
    Converged c raw f f := by
  have hle : f ≤ raw := le_of_not_gt fun hgt => ((lpfDelta_bounds hc f raw).2 hgt).2.ne h
  exact ⟨fun hge => le_antisymm hle hge, fun _ => ⟨hle, (lpfDelta_eq_zero_iff hle).mp h⟩⟩

/-- Each step keeps to the side of the raw sample it began on, so what converges from the next value converges. -/
theorem Converged.of_next {c : Cfg} {raw v : Int} {f : Word32} (hc : CoefInRange c) (hraw : fitsS32 raw = true)
    (h : Converged c raw (lpfChannel c f raw).toInt v) : Converged c raw f.toInt v := by
  obtain ⟨hlo, hhi, -⟩ := lpfChannel_between hc hraw f
  exact ⟨fun hge => h.1 (by omega), fun hle => h.2 (by omega)⟩

/-- While the filter moves, its distance from the raw sample falls. -/
theorem lpfChannel_natAbs_lt {c : Cfg} {raw : Int} {f : Word32} (hc : CoefInRange c) (hraw : fitsS32 raw = true)
    (hmove : lpfDelta c f.toInt raw ≠ 0) : (raw - (lpfChannel c f raw).toInt).natAbs < (raw - f.toInt).natAbs := by
  rw [lpfChannel_toInt hc hraw]
  have hbounds := lpfDelta_bounds hc f.toInt raw
  omega

/-- Some number of steps on one raw sample converges, by induction on the distance from it. -/
theorem lpfChannel_converges {c : Cfg} {raw : Int} (hc : CoefInRange c) (hraw : fitsS32 raw = true) (f : Word32) :
    ∃ n, Converged c raw f.toInt ((lpfChannel c · raw)^[n] f).toInt := by
  by_cases hmove : lpfDelta c f.toInt raw = 0
  · exact ⟨0, converged_of_lpfDelta_eq_zero hc hmove⟩
  · have := lpfChannel_natAbs_lt hc hraw hmove
    obtain ⟨n, hn⟩ := lpfChannel_converges hc hraw (lpfChannel c f raw)
    exact ⟨n + 1, hn.of_next hc hraw⟩
termination_by (raw - f.toInt).natAbs

/-- A run of `LPF.STEP`s on one raw pair runs the two channels side by side. -/
theorem runOps_replicate_lpfStep (rx ry : Int) (n : Nat) (s : State) : ∃ t,
    runOps (List.replicate n (.lpfStep rx ry)) s = .next t
      ∧ t.fx = (lpfChannel s.cfg · rx)^[n] s.fx ∧ t.fy = (lpfChannel s.cfg · ry)^[n] s.fy := by
  induction n generalizing s with
  | zero => exact ⟨s, rfl, rfl, rfl⟩
  | succ n ih =>
    obtain ⟨t, ht, hx, hy⟩ := ih (answer _ (lpf ⟨rx, ry⟩ s))
    exact ⟨t, by rw [List.replicate_succ, runOps, exec_lpfStep, andThen_next, ht], hx, hy⟩

end Sys2Proof.Machine

open Sys2Proof Sys2Proof.Machine

/-- Settles O36: the shift of R181 as a floored quotient, on each channel. -/
theorem lpfStepFollowsTheRecurrence : Obligations.LpfStepFollowsTheRecurrence := fun rx ry s _ _ =>
  ⟨_, exec_lpfStep rx ry s, lpfChannel_eq s.cfg s.fx rx, lpfChannel_eq s.cfg s.fy ry, rfl⟩

/-- Settles O37: no overshoot, on each channel. -/
theorem lpfNeverOvershoots : Obligations.LpfNeverOvershoots := by
  intro rx ry s hpos hle hrx hry
  have hc : CoefInRange s.cfg := ⟨hpos, hle⟩
  obtain ⟨hxlo, hxhi, hxlt⟩ := lpfChannel_between hc hrx s.fx
  obtain ⟨hylo, hyhi, hylt⟩ := lpfChannel_between hc hry s.fy
  have hx := lpfChannel_toInt hc hrx s.fx
  have hy := lpfChannel_toInt hc hry s.fy
  rw [lpfDelta_eq] at hx hy
  exact ⟨_, exec_lpfStep rx ry s, hx, hy, hxlo, hxhi, hylo, hyhi, hxlt, hylt⟩

/-- Settles O38: each channel converges, and stays in its band. -/
theorem lpfConverges : Obligations.LpfConverges := by
  intro rx ry s hpos hle hrx hry
  obtain ⟨n, hn⟩ := lpfChannel_converges ⟨hpos, hle⟩ hrx s.fx
  obtain ⟨m, hm⟩ := lpfChannel_converges ⟨hpos, hle⟩ hry s.fy
  obtain ⟨t, ht, hx, -⟩ := runOps_replicate_lpfStep rx ry n s
  obtain ⟨u, hu, -, hy⟩ := runOps_replicate_lpfStep rx ry m s
  exact ⟨⟨n, t, ht, hx ▸ hn⟩, ⟨m, u, hu, hy ▸ hm⟩,
    fun h hband => ⟨_, exec_lpfStep rx ry s, lpfChannel_of_band h hband⟩,
    fun h hband => ⟨_, exec_lpfStep rx ry s, lpfChannel_of_band h hband⟩⟩

end

section
/-! PROOFS of the family `48_tick.md`: the accepted configurations (R195), a tick that goes on or is refused (R191, R203), a
tick apart from the last result and the events to come (R192), and a run of ticks one after the other (R196). -/

namespace Sys2Proof.Machine

/-! ### What a generator sees of the modulation values: the clamped ones (R122, R150) -/

theorem growScale_growValue (c : Cfg) (p : Phase) (gm : Int) : growScale c p (growValue c gm) = growScale c p gm := by
  have hclamp : growValue c (growValue c gm) = growValue c gm := by simp only [growValue_eq]; omega
  simp only [growScale, hclamp]

theorem rawFn_growValue (c : Cfg) (p a : Phase) (gm : Int) : rawFn c p (growValue c gm) a = rawFn c p gm a := by
  simp only [rawFn, growScale_growValue]

theorem rawMesh_growValue (c : Cfg) (j : Fin 3) (p a : Phase) (gm : Int) :
    rawMesh c j p (growValue c gm) a = rawMesh c j p gm a := by
  simp only [rawMesh, growScale_growValue]

theorem rawWt_clamped (c : Cfg) (j : Fin 3) (p : Phase) (gm mm : Int) :
    rawWt c j p (growValue c gm) (morphValue mm) = rawWt c j p gm mm := by
  have hclamp : morphValue (morphValue mm) = morphValue mm := by simp only [morphValue_eq]; omega
  simp only [rawWt, growScale_growValue, hclamp]

/-! ### The exhaustive check ranges over all that a generator sees (R195) -/

/-- `FitsS32(Cfg)` in R195's own words, over every modulation value. -/
def RawOutputsFit (c : Cfg) : Prop :=
  ∀ (p a : Phase) (gm mm : Int) (j : Fin 3),
    pairFits (rawFn c p gm a) = true ∧ meshFits (rawMesh c j p gm a) = true ∧ pairFits (rawWt c j p gm mm) = true

theorem forall_fin_three_iff {P : Fin 3 → Prop} : (∀ j, P j) ↔ P 0 ∧ P 1 ∧ P 2 := by
  simp [Fin.forall_fin_succ]

theorem fitsRotating_iff (c : Cfg) (p g a : Nat) : fitsRotating c p g a = true ↔
    pairFits (rawFn c (BitVec.ofNat 32 p) g (BitVec.ofNat 32 a)) = true
      ∧ ∀ j, meshFits (rawMesh c j (BitVec.ofNat 32 p) g (BitVec.ofNat 32 a)) = true := by
  simp only [fitsRotating, Bool.and_eq_true, and_assoc, forall_fin_three_iff]

theorem fitsWavetable_iff (c : Cfg) (p g m : Nat) : fitsWavetable c p g m = true ↔
    ∀ j, pairFits (rawWt c j (BitVec.ofNat 32 p) g m) = true := by
  simp only [fitsWavetable, Bool.and_eq_true, and_assoc, forall_fin_three_iff]

theorem fitsAll_iff_fits (c : Cfg) : fitsAll c = true ↔ ∀ p < 4294967296, ∀ g < 4097,
    (∀ a < 4294967296, fitsRotating c p g a = true) ∧ ∀ m < 4097, fitsWavetable c p g m = true := by
  simp only [fitsAll, allBelow_iff, Bool.and_eq_true]

/-- Every operand of a raw output is, after its clamp, one of the numbers the check goes through. -/
theorem fitsAll_iff (c : Cfg) : fitsAll c = true ↔ RawOutputsFit c := by
  rw [fitsAll_iff_fits]
  constructor
  · intro h p a gm mm j
    obtain ⟨g, hg⟩ := Int.eq_ofNat_of_zero_le (growValue_bounds c gm).1
    obtain ⟨m, hm⟩ := Int.eq_ofNat_of_zero_le (show 0 ≤ morphValue mm by rw [morphValue_eq]; omega)
    have hgmax : g < 4097 := by have := (growValue_bounds c gm).2; omega
    have hmmax : m < 4097 := by have := morphValue_eq mm; omega
    obtain ⟨hrot, hwt⟩ := h p.toNat p.isLt g hgmax
    obtain ⟨hfn, hmesh⟩ := (fitsRotating_iff ..).mp (hrot a.toNat a.isLt)
    have hwave := (fitsWavetable_iff ..).mp (hwt m hmmax)
    simpa only [BitVec.ofNat_toNat, BitVec.setWidth_eq, ← hg, ← hm, rawFn_growValue, rawMesh_growValue, rawWt_clamped]
      using And.intro hfn (And.intro (hmesh j) (hwave j))
  · intro h p _ g _
    refine ⟨fun a _ => (fitsRotating_iff ..).mpr ⟨(h _ _ g 0 0).1, fun j => (h _ _ g 0 j).2.1⟩, fun m _ => ?_⟩
    exact (fitsWavetable_iff ..).mpr fun j => (h _ 0#32 g m j).2.2

/-! ### Bounds of the arithmetic (R11) -/

theorem natAbs_mul_le {a b : Int} {m n : Nat} (ha : a.natAbs ≤ m) (hb : b.natAbs ≤ n) : (a * b).natAbs ≤ m * n :=
  Int.natAbs_mul a b ▸ Nat.mul_le_mul ha hb

/-- A product with a factor of at most one, in units of `2^n`. -/
theorem asr_mul_natAbs_le {a b : Int} {m n : Nat} (ha : a.natAbs ≤ m) (hb : b.natAbs ≤ 2 ^ n) :
    (asr (a * b) n).natAbs ≤ m :=
  asr_natAbs_le_of_scaled _ _ _ (natAbs_mul_le ha hb)

/-- A sum of two such products. -/
theorem asr_mul_add_mul_natAbs_le {a b u v : Int} {m n : Nat} (ha : a.natAbs ≤ m) (hb : b.natAbs ≤ m)
    (hu : u.natAbs ≤ 2 ^ n) (hv : v.natAbs ≤ 2 ^ n) : (asr (a * u + b * v) n).natAbs ≤ 2 * m := by
  have hau := natAbs_mul_le ha hu
  have hbv := natAbs_mul_le hb hv
  refine asr_natAbs_le_of_scaled _ _ _ ?_
  rw [Nat.mul_assoc]
  omega

theorem asr_mul_sub_mul_natAbs_le {a b u v : Int} {m n : Nat} (ha : a.natAbs ≤ m) (hb : b.natAbs ≤ m)
    (hu : u.natAbs ≤ 2 ^ n) (hv : v.natAbs ≤ 2 ^ n) : (asr (a * u - b * v) n).natAbs ≤ 2 * m := by
  rw [sub_eq_add_neg, ← neg_mul]
  exact asr_mul_add_mul_natAbs_le ha ((Int.natAbs_neg b).trans_le hb) hu hv

/-- An interpolation stays within a bound that both values have. -/
theorem interpolate_natAbs_le {a b w : Int} {f m : Nat} (h0 : 0 ≤ w) (h1 : w ≤ 2 ^ f) (ha : a.natAbs ≤ m)
    (hb : b.natAbs ≤ m) : (interpolate a b w f).natAbs ≤ m := by
  have hbetween := interpolate_between a b w f h0 h1
  omega

theorem half_natAbs_le (h : Half) : h.toInt.natAbs ≤ 2 ^ 15 := by
  have hbounds := half_toInt_bounds h
  omega

/-- A lookup stays within a bound that every entry has. -/
theorem lutRead_natAbs_le {c : Cfg} {t : SampleTable} {m : Nat} (h : ∀ i, (readSample c t i).natAbs ≤ m) (p : Phase) :
    (lutRead c t p).natAbs ≤ m :=
  interpolate_natAbs_le (Int.natCast_nonneg _) (mod_cast (lutWeight_lt t p).le) (h _) (h _)

/-- Both coordinates are at most `m` in magnitude. -/
def Pt2.Within (q : Pt2) (m : Nat) : Prop :=
  q.x.natAbs ≤ m ∧ q.y.natAbs ≤ m

/-- All three coordinates are at most `m` in magnitude. -/
def Pt3.Within (q : Pt3) (m : Nat) : Prop :=
  q.x.natAbs ≤ m ∧ q.y.natAbs ≤ m ∧ q.z.natAbs ≤ m

theorem Pt2.Within.fits {q : Pt2} {m : Nat} (h : q.Within m) (hm : m ≤ 2147483647) : pairFits q = true := by
  obtain ⟨hx, hy⟩ := h
  simp only [pairFits, fitsS32, Bool.and_eq_true, decide_eq_true_eq]
  omega

/-! ### The wavetable's raw output always fits (R153) -/

theorem wtChannel_natAbs_le (c : Cfg) (j : Fin 3) (side : WtSide) (ch : WtChannel) (p : Phase) :
    (lutRead c (.wt j side ch) p).natAbs ≤ 2 ^ 15 :=
  lutRead_natAbs_le (fun _ => half_natAbs_le _) p

theorem morphMix_natAbs_le {a b : Int} {m : Nat} (mm : Int) (ha : a.natAbs ≤ m) (hb : b.natAbs ≤ m) :
    (morphMix a b (morphValue mm)).natAbs ≤ m := by
  have hweight := morphValue_eq mm
  exact interpolate_natAbs_le (by omega) (by omega) ha hb

theorem wtScale_within {c : Cfg} {q : Pt2} (h : q.Within (2 ^ 15)) : (wtScale c q).Within (2 ^ 15 * 2 ^ 15) := by
  obtain ⟨hx, hy⟩ := h
  refine ⟨asr_natAbs_le _ _ _ (natAbs_mul_le hx (half_natAbs_le _)), ?_⟩
  exact (Int.natAbs_neg _).trans_le (asr_natAbs_le _ _ _ (natAbs_mul_le hy (half_natAbs_le _)))

theorem rawWt_within (c : Cfg) (j : Fin 3) (p : Phase) (gm mm : Int) : (rawWt c j p gm mm).Within (2 ^ 15 * 2 ^ 15) :=
  wtScale_within ⟨morphMix_natAbs_le mm (wtChannel_natAbs_le ..) (wtChannel_natAbs_le ..),
    morphMix_natAbs_le mm (wtChannel_natAbs_le ..) (wtChannel_natAbs_le ..)⟩

/-! ### The sufficient condition (R195): the bounds of R130 and R147 -/

/-- `max |SIN[i]| <= 2^SIN_SHIFT`: no entry is above one, in the units of the shift. -/
def SineWithinOne (c : Cfg) : Prop :=
  ∀ v ∈ c.sin.toList, v.toInt.natAbs ≤ 2 ^ c.sinShift.val

theorem sufficientRange_iff (c : Cfg) : sufficientRange c = true ↔
    SineWithinOne c ∧ c.isoK.toInt.natAbs ≤ 2 ^ c.isoShift.val
      ∧ c.meshGain.toInt.natAbs ≤ 2 ^ (c.meshShift.val + 12) := by
  simp only [sufficientRange, SineWithinOne, Bool.and_eq_true, List.all_eq_true, decide_eq_true_eq, and_assoc]

section
variable {c : Cfg} (hsin : SineWithinOne c)
include hsin

theorem lutSin_natAbs_le (p : Phase) : (lutSin c p).natAbs ≤ 2 ^ c.sinShift.val :=
  lutRead_natAbs_le (fun i => hsin _ (List.mem_of_getElem? (readSample_mem c .sin i))) p

theorem lutCos_natAbs_le (p : Phase) : (lutCos c p).natAbs ≤ 2 ^ c.sinShift.val :=
  lutSin_natAbs_le hsin (p + 0x40000000#32)

theorem fnArc_within (gp : Phase) : (fnArc c gp).Within (2 ^ 16) := by
  have hcoord (centre rad : Half) {u : Int} (hu : u.natAbs ≤ 2 ^ c.sinShift.val) :
      (centre.toInt + asr (rad.toInt * u) c.sinShift).natAbs ≤ 2 ^ 16 := by
    have hcentre := half_natAbs_le centre
    have hswing := asr_mul_natAbs_le (half_natAbs_le rad) hu
    omega
  exact ⟨hcoord _ _ (lutCos_natAbs_le hsin _), hcoord _ _ (lutSin_natAbs_le hsin _)⟩

theorem rot2d_within {q : Pt2} {m : Nat} (h : q.Within m) (a : Phase) : (rot2d c q a).Within (2 * m) :=
  ⟨asr_mul_sub_mul_natAbs_le h.1 h.2 (lutCos_natAbs_le hsin a) (lutSin_natAbs_le hsin a),
    asr_mul_add_mul_natAbs_le h.1 h.2 (lutSin_natAbs_le hsin a) (lutCos_natAbs_le hsin a)⟩

theorem rot3dY_within {q : Pt3} {m : Nat} (h : q.Within m) (a : Phase) : (rot3dY c q a).Within (2 * m) := by
  obtain ⟨hx, hy, hz⟩ := h
  exact ⟨asr_mul_add_mul_natAbs_le hx hz (lutCos_natAbs_le hsin a) (lutSin_natAbs_le hsin a),
    hy.trans (Nat.le_mul_of_pos_left m two_pos),
    asr_mul_sub_mul_natAbs_le hz hx (lutCos_natAbs_le hsin a) (lutSin_natAbs_le hsin a)⟩

end

theorem fnFlip_within {c : Cfg} {q : Pt2} {m : Nat} (h : q.Within m) (p : Phase) : (fnFlip c p q).Within m := by
  have hsign (b : Bool) {v : Int} (hv : v.natAbs ≤ m) : (if b then -v else v).natAbs ≤ m := by
    cases b
    · exact hv
    · exact (Int.natAbs_neg v).trans_le hv
  unfold fnFlip
  split
  · exact ⟨hsign _ h.1, hsign _ h.2⟩
  · exact h

/-- The function-defined output stays within `2^17` (R130). -/
theorem rawFn_within {c : Cfg} (hsin : SineWithinOne c) (p a : Phase) (gm : Int) :
    (rawFn c p gm a).Within (2 * 2 ^ 16) :=
  rot2d_within hsin (fnFlip_within (fnArc_within hsin _) p) a

/-- A path point's coordinates lie between those of two points of the path (R141). -/
theorem pathInterp_within {c : Cfg} {j : Fin 3} (hpoints : 1 ≤ pathLen c j) (gp : Phase) :
    ∃ q, pathInterp c j gp = some q ∧ q.Within (2 ^ 15) := by
  obtain ⟨a, b, -, -, hinterp⟩ := pathInterp_of_points c j gp hpoints
  have hweight : segWeight (pathLen c j) gp < 2 ^ 32 := Nat.mod_lt _ (by decide)
  have hcoord (u v : Half) : (interpolate u.toInt v.toInt (segWeight (pathLen c j) gp) 32).natAbs ≤ 2 ^ 15 :=
    interpolate_natAbs_le (Int.natCast_nonneg _) (mod_cast hweight.le) (half_natAbs_le u) (half_natAbs_le v)
  exact ⟨_, hinterp, hcoord _ _, hcoord _ _, hcoord _ _⟩

theorem isoProj_within {c : Cfg} {q : Pt3} {m : Nat} (hiso : c.isoK.toInt.natAbs ≤ 2 ^ c.isoShift.val)
    (h : q.Within m) : (isoProj c q).Within (2 * m) := by
  obtain ⟨hx, hy, hz⟩ := h
  have hdepth := asr_mul_natAbs_le hz hiso
  rw [Int.mul_comm] at hdepth
  exact ⟨hx.trans (Nat.le_mul_of_pos_left m two_pos), (Int.natAbs_add_le _ _).trans (by omega)⟩

theorem meshScale_within {c : Cfg} {q : Pt2} {m : Nat} (hgain : c.meshGain.toInt.natAbs ≤ 2 ^ (c.meshShift.val + 12))
    (h : q.Within m) : (meshScale c q).Within (m * 2 ^ 12) := by
  have hcoord {v : Int} (hv : v.natAbs ≤ m) : (asr (v * c.meshGain.toInt) c.meshShift).natAbs ≤ m * 2 ^ 12 := by
    refine asr_natAbs_le_of_scaled _ _ _ ?_
    rw [Nat.mul_assoc, ← Nat.pow_add, Nat.add_comm 12]
    exact natAbs_mul_le hv hgain
  exact ⟨hcoord h.1, hcoord h.2⟩

/-- The mesh output exists and stays within `2^29` on a path with a point (R147). -/
theorem rawMesh_within {c : Cfg} (h : sufficientRange c = true) {j : Fin 3} (hpoints : 1 ≤ pathLen c j) (p a : Phase)
    (gm : Int) : ∃ q, rawMesh c j p gm a = some q ∧ q.Within (2 * (2 * 2 ^ 15) * 2 ^ 12) := by
  obtain ⟨hsin, hiso, hgain⟩ := (sufficientRange_iff c).mp h
  obtain ⟨_, hinterp, hpath⟩ := pathInterp_within hpoints (growScale c p gm)
  exact ⟨_, rawMesh_of_pathInterp c j p gm a _ hinterp,
    meshScale_within hgain (isoProj_within hiso (rot3dY_within hsin hpath a))⟩

/-- R195's sufficient condition gives `FitsS32`, where each path has a point. -/
theorem rawOutputsFit_of_sufficientRange {c : Cfg} (h : sufficientRange c = true) (hst : structureOk c = true) :
    RawOutputsFit c := by
  intro p a gm mm j
  obtain ⟨hsin, -, -⟩ := (sufficientRange_iff c).mp h
  obtain ⟨q, hmesh, hwithin⟩ := rawMesh_within h (structureOk_pathLen c hst j) p a gm
  refine ⟨(rawFn_within hsin p a gm).fits (by decide), ?_, (rawWt_within c j p gm mm).fits (by decide)⟩
  rw [hmesh]
  exact hwithin.fits (by decide)

theorem cfgWellFormed_iff (c : Cfg) : cfgWellFormed c = true ↔ structureOk c = true ∧ RawOutputsFit c := by
  rw [cfgWellFormed, Bool.and_eq_true, Bool.or_eq_true, fitsAll_iff]
  exact and_congr_right fun hst => or_iff_right_of_imp fun h => rawOutputsFit_of_sufficientRange h hst

/-! ### A tick goes on or is refused (R191, R203) -/

/-- What a tick needs to go on (R191): a `RESET` given, a well-formed configuration, and the selector in range, which every
run keeps (R29). -/
structure Ready (s : State) : Prop where
  started : s.started = true
  wellFormed : cfgWellFormed s.cfg = true
  inRange : selectorInRange s = true

@[simp] theorem beforeShape_started (w : TickWord) (b k : BitVec 4) (s : State) :
    (beforeShape w b k s).started = s.started := by
  simp [beforeShape, route_eq, advancePhase]

@[simp] theorem beforeShape_pending (w : TickWord) (b k : BitVec 4) (s : State) :
    (beforeShape w b k s).pending = s.pending := by
  simp [beforeShape, route_eq, advancePhase]

/-- A tick that is ready goes on, returns one output word, leaves the events to come, and is ready again (R190, R193). -/
theorem Ready.exec_tick {s : State} (h : Ready s) (w : TickWord) : ∃ (u : State) (o : OutBits),
    exec (.tick w) s = .next u ∧ u.result = .outWord o ∧ u.pending = s.pending ∧ Ready u := by
  obtain ⟨b, k, r0, d, g, r, -, hsel, -, -, hgen, hexec⟩ := exec_tick_of_inRange w s h.started h.wellFormed h.inRange
  have hframe := generated_frame g _ r hgen
  have hpending : r.1.pending = s.pending := by rw [hframe]; simp
  have hstarted : r.1.started = true := by rw [hframe]; simpa using h.started
  have hcfg : cfgWellFormed r.1.cfg = true := by rw [hframe]; simpa using h.wellFormed
  have hselector : selectorInRange r.1 = true := by rw [hframe]; exact hsel
  exact ⟨_, _, hexec, rfl, hpending, hstarted, hcfg, hselector⟩

/-- A tick is refused before the first `RESET` and under a configuration that is not well-formed (R203 (b), (c)). -/
theorem exec_tick_refused (w : TickWord) (s : State) (h : ¬ (s.started = true ∧ cfgWellFormed s.cfg = true)) :
    ∃ r, exec (.tick w) s = .refused r := by
  simp only [exec, execTick]
  split
  · exact ⟨_, rfl⟩
  next hstarted =>
    split
    · exact ⟨_, rfl⟩
    next hcfg => exact absurd (by simpa using And.intro hstarted hcfg) h

theorem step_tick_next {s : State} {w : TickBits} {rest : List HostEvent} (hpending : s.pending = .tick w :: rest)
    (hs : Ready s) (hword : tickWellFormed w = true) : ∃ t, step s = .next t := by
  obtain ⟨t, hdecode⟩ := (tickWellFormed_iff_decodeTick w).mp hword
  have hready : Ready (setPending rest s) := ⟨hs.started, hs.wellFormed, hs.inRange⟩
  obtain ⟨u, _, hexec, -⟩ := hready.exec_tick t
  exact ⟨u, (step_tick s w t rest hpending hdecode).trans hexec⟩

theorem step_tick_refused {s : State} {w : TickBits} {rest : List HostEvent} (hpending : s.pending = .tick w :: rest)
    (h : ¬ (s.started = true ∧ tickWellFormed w = true ∧ cfgWellFormed s.cfg = true)) :
    ∃ r, step s = .refused r := by
  cases hdecode : decodeTick w with
  | error e => exact step_illFormed s w e rest hpending hdecode
  | ok t =>
    have hword : tickWellFormed w = true := (tickWellFormed_iff_decodeTick w).mpr ⟨t, hdecode⟩
    rw [step_tick s w t rest hpending hdecode]
    exact exec_tick_refused t (setPending rest s) fun ⟨hstarted, hcfg⟩ => h ⟨hstarted, hword, hcfg⟩

/-! ### A tick apart from the last result and the events to come (R192) -/

/-- The operation does the same whatever the last result and the events to come, and touches neither but for its own
result. -/
def IgnoresHost (i : Instr) : Prop :=
  ∀ (r : OpResult) (l : List HostEvent) (s t : State), exec i s = .next t →
    ∃ q, exec i (answer r (setPending l s)) = .next (answer q (setPending l t))

theorem ignoresHost_phaseAdv (freq cv : Half) : IgnoresHost (.phaseAdv freq cv) := by
  intro r l s t h
  cases h
  exact ⟨_, rfl⟩

theorem route_host (m : RouterMode) (a b c d e : Half) (r : OpResult) (l : List HostEvent) (s : State) :
    route m a b c d e (answer r (setPending l s)) = answer r (setPending l (route m a b c d e s)) := by
  rw [route_eq, route_eq]
  rfl

theorem ignoresHost_routeOp (w : TickWord) : IgnoresHost (routeOp w) := by
  intro r l s t h
  rw [← routeSlot_exec, routeSlot_eq] at h ⊢
  cases h
  rw [route_host]
  exact ⟨_, rfl⟩

theorem ignoresHost_selector {i : Instr} {op : State → Option State} (hi : ∀ s, exec i s = selected (op s))
    (hop : ∀ r l s, op (answer r (setPending l s)) = (op s).map fun u => answer r (setPending l u)) :
    IgnoresHost i := by
  intro r l s t h
  rw [hi] at h
  obtain ⟨u, hu, rfl⟩ := selected_eq_next _ t h
  rw [hi, hop, hu]
  exact ⟨_, rfl⟩

theorem ignoresHost_selAdvOsc : IgnoresHost .selAdvOsc :=
  ignoresHost_selector exec_selAdvOsc fun r l s => by
    simp only [advOsc, answer_cfg, setPending_cfg, answer_bank, setPending_bank]
    split
    · rw [apply_ite (Option.map _)]; rfl
    · rfl

theorem ignoresHost_selAdvBank : IgnoresHost .selAdvBank :=
  ignoresHost_selector exec_selAdvBank fun r l s => by
    rw [advBank, advBank, apply_ite (Option.map _)]; rfl

theorem ignoresHost_selAdvSlot : IgnoresHost .selAdvSlot :=
  ignoresHost_selector exec_selAdvSlot fun r l s => by
    simp only [advSlot, answer_cfg, setPending_cfg, answer_bank, setPending_bank]
    split
    · rw [apply_ite (Option.map _)]; rfl
    · rfl

theorem ignoresHost_of_mem_tickOps {w : TickWord} {i : Instr} (h : i ∈ tickOps w) : IgnoresHost i := by
  simp only [tickOps, List.mem_append, List.mem_cons, List.not_mem_nil, or_false, List.mem_ite_nil_right] at h
  obtain (((rfl | rfl) | ⟨-, rfl⟩) | ⟨-, rfl⟩) | ⟨-, rfl⟩ := h
  · exact ignoresHost_phaseAdv _ _
  · exact ignoresHost_routeOp w
  · exact ignoresHost_selAdvOsc
  · exact ignoresHost_selAdvBank
  · exact ignoresHost_selAdvSlot

/-- So does a run of such operations. -/
theorem runOps_host {ops : List Instr} (hops : ∀ i ∈ ops, IgnoresHost i) (r : OpResult) (l : List HostEvent) (s t : State)
    (h : runOps ops s = .next t) :
    ∃ q, runOps ops (answer r (setPending l s)) = .next (answer q (setPending l t)) := by
  induction ops generalizing r s with
  | nil => cases h; exact ⟨r, rfl⟩
  | cons i ops ih =>
    obtain ⟨hi, hrest⟩ := List.forall_mem_cons.mp hops
    obtain ⟨u, hu, ht⟩ := andThen_eq_next _ _ t h
    obtain ⟨q, hq⟩ := hi r l s u hu
    rw [runOps, hq, andThen_next]
    exact ih hrest q u ht

/-- A next state of slot G and what follows comes from the generator that the selected descriptor names (R76). -/
theorem withGenerator_next (s t : State) (k : State → Pt2 → Host.Outcome State Fault Refusal)
    (h : withGenerator s k = .next t) : ∃ (d : DescBits) (g : Generator) (r : State × Pt2),
      readDesc s.cfg s.bank.toNat s.slot.toNat = some d ∧ decodeDesc d = .ok g ∧ generated g s = some r
        ∧ k r.1 r.2 = .next t := by
  unfold withGenerator at h
  split at h
  · cases h
  next d hd =>
    split at h
    · cases h
    next hg => exact ⟨d, .fn, _, hd, hg, rfl, h⟩
    next j hg =>
      split at h
      next r hr => exact ⟨d, .mesh j, r, hd, hg, hr, h⟩
      · cases h
    next j hg => exact ⟨d, .wt j, _, hd, hg, rfl, h⟩

/-- A next state of a tick, taken apart: the operations of its word, the selected generator, the filter (R190). -/
theorem exec_tick_next_slots (w : TickWord) (s u : State) (h : exec (.tick w) s = .next u) :
    ∃ (v : State) (d : DescBits) (g : Generator) (r : State × Pt2), runOps (tickOps w) s = .next v
      ∧ readDesc v.cfg v.bank.toNat v.slot.toNat = some d ∧ decodeDesc d = .ok g ∧ generated g v = some r
      ∧ u = answer (.outWord (outputWord (lpf r.2 r.1))) (lpf r.2 r.1) := by
  obtain ⟨hstarted, hcfg⟩ := exec_tick_next w s u h
  rw [exec_tick w s hstarted hcfg, tickSlots_runOps] at h
  obtain ⟨v, hv, hslots⟩ := andThen_eq_next _ _ u h
  obtain ⟨d, g, r, hd, hg, hr, hu⟩ := withGenerator_next v u _ hslots
  exact ⟨v, d, g, r, hv, hd, hg, hr, (Host.Outcome.next.inj hu).symm⟩

theorem shapeMesh_eq (j : Fin 3) (s : State) : shapeMesh j s =
    (rawMesh s.cfg j s.ph s.mod1.toInt (advanceRot (meshRot j) s.mod2.toInt s).rot[meshRot j]).map
      fun q => (advanceRot (meshRot j) s.mod2.toInt s, q) := by
  simp only [shapeMesh]
  cases rawMesh s.cfg j s.ph s.mod1.toInt (advanceRot (meshRot j) s.mod2.toInt s).rot[meshRot j] <;> rfl

/-- A generator reads registers alone. -/
theorem generated_host (g : Generator) (q : OpResult) (l : List HostEvent) (s : State) (r : State × Pt2)
    (h : generated g s = some r) :
    generated g (answer q (setPending l s)) = some (answer q (setPending l r.1), r.2) := by
  cases g with
  | fn => cases h; rfl
  | wt j => cases h; rfl
  | mesh j =>
    rw [generated, shapeMesh_eq, Option.map_eq_some_iff] at h ⊢
    obtain ⟨p, hraw, rfl⟩ := h
    exact ⟨p, hraw, rfl⟩

/-! ### A run of ticks (R196) -/

/-- One more tick word: its output word comes last, and the run ends in the state after its tick (R194, R196). -/
theorem observeTicks_concat {l : List TickBits} {w : TickBits} {s : State} {q : Observation}
    (hrun : observeTicks l s = .next q) (hready : Ready q.final) (hword : tickWellFormed w = true) :
    ∃ (u : State) (o : OutBits), step (present (.tick w) q.final) = .next u ∧ u.result = .outWord o
      ∧ u.pending = q.final.pending ∧ Ready u
      ∧ observeTicks (l ++ [w]) s = .next { outputs := q.outputs ++ [o], final := u } := by
  obtain ⟨t, hdecode⟩ := (tickWellFormed_iff_decodeTick w).mp hword
  obtain ⟨u, o, hexec, hresult, hpending, hu⟩ := hready.exec_tick t
  have hstep : step (present (.tick w) q.final) = .next u := (step_present_tick w t _ hdecode).trans hexec
  refine ⟨u, o, hstep, hresult, hpending, hu, ?_⟩
  rw [observeTicks, List.map_append, observe_append _ _ s q hrun, List.map_singleton, observe_cons _ _ _ u hstep,
    hresult]
  rfl

/-- A run over well-formed words completes, with a word per tick, and the next tick is ready. -/
theorem observeTicks_of_ready (ws : List TickBits) (s : State) (hs : Ready s)
    (hwords : ∀ w ∈ ws, tickWellFormed w = true) : ∃ r : Observation, observeTicks ws s = .next r
      ∧ r.outputs.length = ws.length ∧ r.final.pending = s.pending ∧ Ready r.final := by
  induction ws using List.reverseRecOn with
  | nil => exact ⟨_, rfl, rfl, rfl, hs⟩
  | append_singleton l w ih =>
    obtain ⟨hl, hw⟩ := List.forall_mem_append.mp hwords
    obtain ⟨q, hrun, hlength, hpending, hready⟩ := ih hl
    obtain ⟨u, o, -, -, hkept, hu, hmore⟩ := observeTicks_concat hrun hready (hw w (List.mem_singleton_self w))
    exact ⟨_, hmore, by simp [hlength], hkept.trans hpending, hu⟩

end Sys2Proof.Machine

open Sys2Proof Sys2Proof.Machine

/-- Settles O39: the tick's slots under the names of its operations; a generator's operation and `LPF.STEP` add to them only
a result that the output word replaces. -/
theorem tickIsItsSlotOperations : Obligations.TickIsItsSlotOperations := by
  intro w s hstarted hcfg hsel
  obtain ⟨b, k, r0, d, g, r, hops, -, hdesc, hg, hgen, hexec⟩ := exec_tick_of_inRange w s hstarted hcfg hsel
  have hread : readDesc (beforeShape w b k s).cfg b.toNat k.toNat = some d := by rw [beforeShape_cfg]; exact hdesc
  rw [← answer_answer _ (.pair r.2), ← lpf_answer] at hexec
  exact ⟨d, g, r.2, _, _, _, hops, hread, hg, generated_exec _ g r hgen, answer_result _ _, exec_lpfStep _ _ _, hexec⟩

/-- Settles O47: a step goes on where all is in order and is refused otherwise, and these outcomes exclude each other. -/
theorem tickStepIsTotalOnWellFormedInputs : Obligations.TickStepIsTotalOnWellFormedInputs := by
  intro s w rest hpending hsel
  by_cases h : s.started = true ∧ tickWellFormed w = true ∧ cfgWellFormed s.cfg = true
  · obtain ⟨t, ht⟩ := step_tick_next hpending ⟨h.1, h.2.2, hsel⟩ h.2.1
    exact ⟨iff_of_true ⟨t, ht⟩ h, iff_of_false (by simp [ht]) (not_not_intro h)⟩
  · obtain ⟨r, hr⟩ := step_tick_refused hpending h
    exact ⟨iff_of_false (by simp [hr]) h, iff_of_true ⟨r, hr⟩ h⟩

/-- Settles O52: slots P, M and S and the generator run the same, and the tick's own word replaces the last result. -/
theorem tickDependsOnRegistersAlone : Obligations.TickDependsOnRegistersAlone := by
  intro w s u r l h
  obtain ⟨hstarted, hcfg⟩ := exec_tick_next w s u h
  obtain ⟨v, d, g, p, hops, hdesc, hg, hgen, rfl⟩ := exec_tick_next_slots w s u h
  obtain ⟨q, hops'⟩ := runOps_host (fun _ => ignoresHost_of_mem_tickOps) r l s v hops
  exact exec_tick_of_generated w (answer r (setPending l s)) (answer q (setPending l v)) d g _ hstarted hcfg hops' hdesc hg
    (generated_host g q l v p hgen)

/-- Settles O53: by induction on the words from the last one; the run over the words before it is the shorter run. -/
theorem runReturnsOneWordPerTick : Obligations.RunReturnsOneWordPerTick := by
  intro ws s hstarted hcfg hsel hwords
  have hs : Ready s := ⟨hstarted, hcfg, hsel⟩
  obtain ⟨r, hrun, hlength, hpending, -⟩ := observeTicks_of_ready ws s hs hwords
  refine ⟨r, hrun, hlength, hpending, ?_⟩
  rintro l w rfl
  obtain ⟨hl, hw⟩ := List.forall_mem_append.mp hwords
  obtain ⟨q, hrunl, -, -, hready⟩ := observeTicks_of_ready l s hs hl
  obtain ⟨u, o, hstep, hresult, -, -, hmore⟩ := observeTicks_concat hrunl hready (hw w (List.mem_singleton_self w))
  obtain rfl := Host.Outcome.next.inj (hrun.symm.trans hmore)
  exact ⟨q, o, hrunl, hstep, hresult, rfl⟩

/-- Settles O54: the exhaustive check is `FitsS32` of the clamped values, and the sufficient condition implies it. -/
theorem acceptedConfigurationsFit : Obligations.AcceptedConfigurationsFit :=
  cfgWellFormed_iff

/-- Settles O46: by the next event, decoded and taken from the events to come. -/
theorem stepRunsTheDecodedEvent : Obligations.StepRunsTheDecodedEvent := fun s rest =>
  ⟨fun w t hpending hdecode => step_tick s w t rest hpending hdecode, step_reset s rest, step_idle s⟩

end

section
/-! PROOFS of the families `60_exceptions.md` and `70_reset_and_hazards.md`: every register after `RESET` (R220), the first
tick after it (R222), and the stops in states that no run reaches (R203; log entries 7 to 9). -/

namespace Sys2Proof.Machine

/-! ### The registers after `RESET` (R36, R220) -/

theorem resetRegisters_rot (s : State) (k : Fin 4) : (resetRegisters s).rot[k] = 0#32 :=
  match k with
  | 0 | 1 | 2 | 3 => rfl

/-! ### A tick with no mode recorded (R27, R222) -/

theorem modeChanged_of_noMode (m : RouterMode) (s : State) (hmode : s.modeV = false) : modeChanged m s = false := by
  rw [modeChanged, hmode, Bool.false_and]

/-- A channel that is free while no mode is recorded stays free (R162). -/
theorem guarded1_of_noMode (m : RouterMode) (ctl : Half) (s : State) (hmode : s.modeV = false) (hg1 : s.g1 = false) :
    guarded1 m ctl s = false := by
  rw [guarded1, modeChanged_of_noMode m s hmode, hg1, Bool.false_and, Bool.or_false]

theorem guarded2_of_noMode (m : RouterMode) (ctl : Half) (s : State) (hmode : s.modeV = false) (hg2 : s.g2 = false) :
    guarded2 m ctl s = false := by
  rw [guarded2, modeChanged_of_noMode m s hmode, hg2, Bool.false_and, Bool.or_false]

/-- Slots P, M and S record the mode, leave both channels free, and keep both references. -/
theorem beforeShape_of_noMode (w : TickWord) (b k : BitVec 4) (s : State) (hmode : s.modeV = false) (hg1 : s.g1 = false)
    (hg2 : s.g2 = false) :
    (beforeShape w b k s).modeV = true ∧ (beforeShape w b k s).mode = switchMode w.sw
      ∧ (beforeShape w b k s).g1 = false ∧ (beforeShape w b k s).g2 = false
      ∧ (beforeShape w b k s).ref1 = s.ref1 ∧ (beforeShape w b k s).ref2 = s.ref2 := by
  have hmodeP : (advancePhase w.freq w.cv s).modeV = false := hmode
  rw [beforeShape, route_eq, modeChanged_of_noMode _ _ hmodeP, guarded1_of_noMode _ _ _ hmodeP hg1,
    guarded2_of_noMode _ _ _ hmodeP hg2]
  exact ⟨rfl, rfl, rfl, rfl, rfl, rfl⟩

/-! ### Reads past a table's end (R52) -/

theorem pathInterp_of_noPoints {c : Cfg} {j : Fin 3} (h : c.path[j] = []) (gp : Phase) : pathInterp c j gp = none := by
  have hread (i : Nat) : readPath c j i = none := by rw [readPath, h, List.getElem?_nil]
  simp only [pathInterp, hread]

theorem shapeMesh_of_noPoints {s : State} {j : Fin 3} (h : s.cfg.path[j] = []) : shapeMesh j s = none := by
  rw [shapeMesh_eq, rawMesh, pathInterp_of_noPoints h, Option.map_none]

theorem slotCount_of_noBank {c : Cfg} {b : Nat} (h : c.gdesc.length ≤ b) : slotCount c b = none := by
  rw [slotCount, List.getElem?_eq_none h, Option.map_none]

theorem advOsc_of_noBank {s : State} (h : slotCount s.cfg s.bank.toNat = none) : advOsc s = none := by
  simp only [advOsc, h]

theorem advSlot_of_noBank {s : State} (h : slotCount s.cfg s.bank.toNat = none) : advSlot s = none := by
  simp only [advSlot, h]

theorem advSlot_of_noSlots {s : State} (h : slotCount s.cfg s.bank.toNat = some 0) : advSlot s = none := by
  simp only [advSlot, h, if_true]

theorem advBank_of_noBanks {s : State} (h : bankCount s.cfg = 0) : advBank s = none := if_pos h

/-- A selector out of its range is one that no descriptor stands at (R29, R80). -/
theorem selectorInRange_eq_false_iff (s : State) :
    selectorInRange s = false ↔ readDesc s.cfg s.bank.toNat s.slot.toNat = none := by
  unfold selectorInRange readDesc slotCount
  cases s.cfg.gdesc[s.bank.toNat]? with
  | none => simp
  | some l => simp

/-! ### Where a tick stops (R203, R58 (a)) -/

theorem exec_pathInterp_of_noPoints {s : State} {j : Fin 3} (h : s.cfg.path[j] = []) (gp : Phase) :
    exec (.pathInterp j gp) s = .fault .emptyPath := by
  simp only [exec, execPathInterp, pathInterp_of_noPoints h]

theorem exec_shapeMesh_of_noPoints {s : State} {j : Fin 3} (h : s.cfg.path[j] = []) :
    exec (.shapeMesh j) s = .fault .emptyPath := by
  simp only [exec, execShapeMesh, shapeMesh_of_noPoints h]

theorem exec_reset_illFormed (s : State) (h : cfgWellFormed s.cfg = false) :
    exec .reset s = .refused .illFormedConfig := by
  simp only [exec, execReset, h, Bool.not_false, if_true]

theorem exec_tick_beforeReset (w : TickWord) (s : State) (h : s.started = false) :
    exec (.tick w) s = .refused .tickBeforeReset := by
  simp only [exec, execTick, h, Bool.not_false, if_true]

theorem exec_tick_illFormed (w : TickWord) (s : State) (hstarted : s.started = true)
    (hcfg : cfgWellFormed s.cfg = false) : exec (.tick w) s = .refused .illFormedConfig := by
  simp only [exec, execTick, hstarted, hcfg, Bool.not_true, Bool.not_false, Bool.false_eq_true, if_false, if_true]

/-- Slot G stops where the selector is out of its range. -/
theorem generateAndFilter_of_noDesc (s : State) (h : selectorInRange s = false) :
    generateAndFilter s = .fault .noSuchDescriptor := by
  simp only [generateAndFilter, withGenerator, (selectorInRange_eq_false_iff s).mp h]

theorem exec_tick_of_fault (w : TickWord) (s : State) (r : Fault) (hstarted : s.started = true)
    (hcfg : cfgWellFormed s.cfg = true) (hops : runOps (tickOps w) s = .fault r) : exec (.tick w) s = .fault r := by
  rw [exec_tick w s hstarted hcfg, tickSlots_runOps, hops, andThen]

theorem exec_tick_of_noDesc (w : TickWord) (s t : State) (hstarted : s.started = true)
    (hcfg : cfgWellFormed s.cfg = true) (hops : runOps (tickOps w) s = .next t) (hsel : selectorInRange t = false) :
    exec (.tick w) s = .fault .noSuchDescriptor := by
  rw [exec_tick w s hstarted hcfg, tickSlots_runOps, hops, andThen_next, generateAndFilter_of_noDesc t hsel]

/-- With no trigger the selector reaches slot G as the tick found it. -/
theorem exec_tick_of_noTrigger_noDesc (w : TickWord) (s : State) (hstarted : s.started = true)
    (hcfg : cfgWellFormed s.cfg = true) (hsel : selectorInRange s = false) (hosc : w.trigOsc = false)
    (hbank : w.trigBank = false) (hslot : w.trigSlot = false) : exec (.tick w) s = .fault .noSuchDescriptor := by
  obtain ⟨r, hops⟩ := tickOps_of_noTrigger w s hosc hbank hslot
  refine exec_tick_of_noDesc w s _ hstarted hcfg hops ?_
  rw [selectorInRange_eq_false_iff] at hsel ⊢
  simpa using hsel

end Sys2Proof.Machine

open Sys2Proof Sys2Proof.Machine

/-- Settles O41: with no mode recorded the router sees no change, and the generator and the filter write none of its
registers. -/
theorem firstTickFreezesNothing : Obligations.FirstTickFreezesNothing := by
  intro w s hstarted hcfg hsel hmode hg1 hg2
  obtain ⟨b, k, r0, d, g, r, -, -, -, -, hgen, hexec⟩ := exec_tick_of_inRange w s hstarted hcfg hsel
  have hrouter := beforeShape_of_noMode w b k s hmode hg1 hg2
  refine ⟨_, hexec, ?_⟩
  rw [generated_frame g _ r hgen]
  exact hrouter

/-- Settles O44: `RESET` completes in the state of reset registers, which keeps the configuration and the events to come. -/
theorem resetClearsEveryRegister : Obligations.ResetClearsEveryRegister := fun s hcfg =>
  ⟨resetRegisters s, exec_reset s hcfg, rfl, resetRegisters_rot s, rfl, rfl, rfl, rfl, rfl, rfl, rfl, rfl, rfl, rfl, rfl, rfl,
    rfl, rfl, rfl, rfl⟩

/-- Settles O60: each stop is a read past a table's end, a refusal before the slots, or a stop of a slot handed on. -/
theorem stopsAreNamed : Obligations.StopsAreNamed := by
  intro s j gp
  refine ⟨fun hpath => ⟨exec_pathInterp_of_noPoints hpath gp, exec_shapeMesh_of_noPoints hpath⟩, fun hbank => ?noBank,
    fun hempty => ?noSlots, fun hlayout => ?noBanks, exec_reset_illFormed s, fun w => ⟨exec_tick_beforeReset w s,
      exec_tick_illFormed w s, exec_tick_of_noTrigger_noDesc w s, fun hstarted hcfg =>
        ⟨fun t => exec_tick_of_noDesc w s t hstarted hcfg, fun r => exec_tick_of_fault w s r hstarted hcfg⟩⟩⟩
  case noBank =>
    have hcount := slotCount_of_noBank hbank
    exact ⟨congrArg selected (advOsc_of_noBank hcount), congrArg selected (advSlot_of_noBank hcount)⟩
  case noSlots =>
    have hcount : slotCount s.cfg s.bank.toNat = some 0 := by rw [slotCount, hempty]; rfl
    exact congrArg selected (advSlot_of_noSlots hcount)
  case noBanks =>
    have hcount : bankCount s.cfg = 0 := by rw [bankCount, hlayout]; rfl
    exact congrArg selected (advBank_of_noBanks hcount)

end
